-- ==== Sys2Proof/Word.lean ====
section
/-! DEFINITION. The word types of DDS-ENC: host registers are 32 bits wide (spec/00_scope.md R7), the bytes of a
frame 8 bits (R9). -/

namespace Sys2Proof

/-- A host register or operand (R7). -/
abbrev Word := BitVec 32

/-- A byte of a frame (R9). -/
abbrev Byte := BitVec 8

end Sys2Proof
end

