-- ==== Sys2Proof/Syntax.lean ====
section
/-! DEFINITION. The syntax of both encodings of DDS-ENC: the 13 commands a host writes to `CMD` and the 11 frames the
block sends to the chip, one constructor of `Instr` for each row of spec/opcode_table.json. -/

namespace Sys2Proof

/-- The chip's registers, by the labels of the register map (20_memory R55). -/
inductive ChipReg where
  | csr | fr1 | fr2 | cfr | cftw | cpow | acr | lsrr | rdw | fdw | cw1
  deriving DecidableEq, Repr, Inhabited

/-- The opcodes of the command map (30_encoding R82), the reserved ones left out. -/
inductive Opcode where
  | init | selectChannel | latchUpdate | writeReg
  | cfgFixedTone | cfgFreqSweep | cfgPhaseSweep | cfgAmpSweep
  | encFreq | encPhase | encAmp | encAmpSweep | encPhaseSweep
  deriving DecidableEq, Repr, Inhabited

/-- One row of the opcode table. A command carries `CH` where it takes a channel (R82, R83); its other operands are the
`ARG` registers, so they are state. A frame carries its payload, first byte sent first (R9, R86). -/
inductive Instr where
  | init
  | selectChannel (ch : Byte)
  | latchUpdate
  | writeReg
  | cfgFixedTone (ch : Byte)
  | cfgFreqSweep (ch : Byte)
  | cfgPhaseSweep (ch : Byte)
  | cfgAmpSweep (ch : Byte)
  | encFreq
  | encPhase
  | encAmp
  | encAmpSweep
  | encPhaseSweep
  | frCsr (payload : List Byte)
  | frFr1 (payload : List Byte)
  | frFr2 (payload : List Byte)
  | frCfr (payload : List Byte)
  | frCftw (payload : List Byte)
  | frCpow (payload : List Byte)
  | frAcr (payload : List Byte)
  | frLsrr (payload : List Byte)
  | frRdw (payload : List Byte)
  | frFdw (payload : List Byte)
  | frCw1 (payload : List Byte)
  deriving DecidableEq, Repr

/-- An instruction as it is carried: a value written to `CMD` (R80), or the bytes of one frame (R86). -/
inductive Code where
  | command (v : Word)
  | frame (bytes : List Byte)
  deriving DecidableEq, Repr

/-- Why a code is no instruction. -/
inductive DecodeError where
  /-- A reserved `CMD` value (R88). -/
  | reservedCommand
  /-- A frame without an address byte. -/
  | noAddress
  /-- An address byte outside the register map (R55, R89). -/
  | badAddress
  /-- A payload of the wrong length for its address (R57, R89). -/
  | badLength
  deriving DecidableEq, Repr

end Sys2Proof
end

