-- ==== Sys2Proof/Config.lean ====
section
/-! DEFINITION. The configuration record `CFG` (00_scope R6), the registers of the reference receiver (20_memory R67),
and the free values: opaque constants without a body, about which nothing can be proved (log 2, log 7, log 11, log 14).
-/

namespace Sys2Proof

/-- `SHADOW_END_POLICY` (R6; 43_mode_sequencer R189, R190). -/
inductive ShadowPolicy where
  | intended | unconstrained
  deriving DecidableEq, Repr, Inhabited

/-- `CFG` (R6): fixed when the block is built, never changed while it runs. `NUM_CHANNELS` is the constant
`Config.numChannels`; `HOST_PARTIAL_ACCESS` (R53) is no field, the model refuses such an access. -/
structure Cfg where
  /-- `F_SYSCLK`, hertz. -/
  fSysclk : Nat
  fr1Value : BitVec 24
  cfrFixed : BitVec 24
  cfrFsweep : BitVec 24
  cfrPsweep : BitVec 24
  cfrAsweep : BitVec 24
  srrFsweep : BitVec 16
  srrPsweep : BitVec 16
  srrAsweep : BitVec 16
  /-- `ACR_BASE_*`: byte0 in bits 15:8, the byte1 baseline in bits 7:0. -/
  acrBaseFixed : BitVec 16
  acrBaseFsweep : BitVec 16
  acrBasePsweep : BitVec 16
  acrBaseAsweep : BitVec 16
  shadowEndPolicy : ShadowPolicy
  /-- `RESET_ACTIVE_LEVEL`: the level of `DDS_RESET` that resets the chip. -/
  resetActiveLevel : Bool
  /-- `CHANNEL_SCOPED`: the registers the receiver keeps per channel. -/
  channelScoped : List ChipReg
  tCsSetup : Nat
  tSclkLow : Nat
  tSclkHigh : Nat
  tCsHold : Nat
  tCsIdle : Nat
  tUpdPre : Nat
  tUpdHigh : Nat
  tRst1 : Nat
  tRst2 : Nat
  tRst3 : Nat
  tRst4 : Nat
  /-- `HOST_BASE` (R51): host accesses carry the offset from it (log 3). -/
  hostBase : Nat
  deriving DecidableEq, Repr, Inhabited

/-- A bank of chip registers other than `CSR`, each as wide as the map says (R55, R58). -/
structure RegBank where
  fr1 : BitVec 24
  fr2 : BitVec 24
  cfr : BitVec 24
  cftw : BitVec 32
  cpow : BitVec 16
  acr : BitVec 24
  lsrr : BitVec 16
  rdw : BitVec 32
  fdw : BitVec 32
  cw1 : BitVec 32
  deriving DecidableEq, Repr, Inhabited

/-- The reference receiver (R67). Of `staged` and `active` the receiver has the registers in `CHANNEL_SCOPED`, of
`stagedG` and `activeG` those outside it; the rest of each bank is carried along and read by no rule (log 24). -/
structure Chip where
  csr : Byte
  staged : Vector RegBank 4
  active : Vector RegBank 4
  stagedG : RegBank
  activeG : RegBank
  inFrame : Bool
  buf : List Bool
  deriving DecidableEq, Repr, Inhabited

/-- `NUM_CHANNELS` (R6): "fixed constants of the hardware". -/
def Config.numChannels : Nat := 4

/-- A draw of every component of the receiver at once (R67, R68, R71; U8, U9). -/
opaque Config.freeChip : Nat → Chip

/-- A draw of the 4 bytes of the shadow slot under `UNCONSTRAINED` (R190, U5). -/
opaque Config.freeShadow : Nat → BitVec 32

/-- A draw of the cycles a gap lasts beyond its lower bound: finite and otherwise free (R250). -/
opaque Config.freeDelay : Nat → Nat

opaque Config.fr1Value : BitVec 24
opaque Config.cfrFixed : BitVec 24
opaque Config.cfrFsweep : BitVec 24
opaque Config.cfrPsweep : BitVec 24
opaque Config.cfrAsweep : BitVec 24
opaque Config.srrFsweep : BitVec 16
opaque Config.srrPsweep : BitVec 16
opaque Config.srrAsweep : BitVec 16
opaque Config.acrBaseFixed : BitVec 16
opaque Config.acrBaseFsweep : BitVec 16
opaque Config.acrBasePsweep : BitVec 16
opaque Config.acrBaseAsweep : BitVec 16
opaque Config.tCsSetup : Nat
opaque Config.tSclkLow : Nat
opaque Config.tSclkHigh : Nat
opaque Config.tCsHold : Nat
opaque Config.tCsIdle : Nat
opaque Config.tUpdPre : Nat
opaque Config.tUpdHigh : Nat
opaque Config.tRst1 : Nat
opaque Config.tRst2 : Nat
opaque Config.tRst3 : Nat
opaque Config.tRst4 : Nat
opaque Config.hostBase : Nat

/-- The registers of the default `CHANNEL_SCOPED`, addresses 0x03 to 0x0A (R6). -/
def Config.defaultScoped : List ChipReg := [.cfr, .cftw, .cpow, .acr, .lsrr, .rdw, .fdw, .cw1]

/-- `CFG` with the values R6 gives and, in each OPEN row, a constant nothing is known of (log 2, log 27). -/
def Config.platform : Cfg where
  fSysclk := 500000000
  fr1Value := Config.fr1Value
  cfrFixed := Config.cfrFixed
  cfrFsweep := Config.cfrFsweep
  cfrPsweep := Config.cfrPsweep
  cfrAsweep := Config.cfrAsweep
  srrFsweep := Config.srrFsweep
  srrPsweep := Config.srrPsweep
  srrAsweep := Config.srrAsweep
  acrBaseFixed := Config.acrBaseFixed
  acrBaseFsweep := Config.acrBaseFsweep
  acrBasePsweep := Config.acrBasePsweep
  acrBaseAsweep := Config.acrBaseAsweep
  shadowEndPolicy := .intended
  resetActiveLevel := false
  channelScoped := Config.defaultScoped
  tCsSetup := Config.tCsSetup
  tSclkLow := Config.tSclkLow
  tSclkHigh := Config.tSclkHigh
  tCsHold := Config.tCsHold
  tCsIdle := Config.tCsIdle
  tUpdPre := Config.tUpdPre
  tUpdHigh := Config.tUpdHigh
  tRst1 := Config.tRst1
  tRst2 := Config.tRst2
  tRst3 := Config.tRst3
  tRst4 := Config.tRst4
  hostBase := Config.hostBase

end Sys2Proof
end

