-- ==== Sys2Proof/Machine/State.lean ====
section
/-! DEFINITION. The state of the machine: the block's record (10_state R20), its reset input, the reference receiver
(20_memory R67), the host's side (60_exceptions R228), and the model's own fields. Reset values: R33. -/

namespace Sys2Proof.Machine

/-- The operand registers `ARG0` to `ARG5` (R23). -/
structure Args where
  a0 : Word
  a1 : Word
  a2 : Word
  a3 : Word
  a4 : Word
  a5 : Word
  deriving DecidableEq, Repr

/-- The output lines (R26). -/
inductive Line where
  | csN | sclk | sdio0 | sdio1 | sdio2 | sdio3 | ioUpdate | ddsReset | pwrDwnN
  deriving DecidableEq, Repr

/-- The levels of the output lines (R26); true is level 1. -/
structure Lines where
  csN : Bool
  sclk : Bool
  sdio0 : Bool
  sdio1 : Bool
  sdio2 : Bool
  sdio3 : Bool
  ioUpdate : Bool
  ddsReset : Bool
  pwrDwnN : Bool
  deriving DecidableEq, Repr

/-- An entry of an event list (R10): `Set(L, v)` or the marker `Wait(T)`. -/
inductive Event where
  | set (l : Line) (v : Bool)
  | wait (t : Nat)
  deriving DecidableEq, Repr

/-- `EXEC` (R27). `timer` counts the cycles still to pass before the next event or the completion; such counters "are part
of `EXEC`'s progress" (R223). -/
inductive Exec where
  | idle
  | running (op : Opcode) (events : List Event) (timer : Nat)
  deriving DecidableEq, Repr

/-- What the host does in one block clock cycle (R216, R228). Offsets count from `HOST_BASE`, widths in bytes. -/
inductive HostOp where
  /-- No access. -/
  | idle
  /-- A bus read. -/
  | read (offset width : Nat)
  /-- A bus write. -/
  | write (offset width : Nat) (value : Word)
  /-- One poll of `WAIT_IDLE` (R91): it stays at the head until `BUSY` reads 0. -/
  | waitIdle
  /-- `EXPECT_OK` (R91): it ends the program where `ERR_CODE` is not 0. -/
  | expectOk
  /-- `RST_N = 0` in this cycle (R240). -/
  | blockReset
  deriving DecidableEq, Repr

/-- A `Set` as it was emitted (R260), with its cycle (R250). -/
structure TraceEvent where
  cycle : Nat
  line : Line
  level : Bool
  deriving DecidableEq, Repr

/-- The error codes by name (R210). -/
inductive ErrCode where
  | badOpcode | busy | notInit | reinit | badChannel | badAddress | badLength | freqRange
  deriving DecidableEq, Repr

/-- Why the machine stops with a fault. -/
inductive Fault where
  /-- Raised by a host access at an offset beyond the 64-byte window (R51), an address this block does not have. Safe: the
  model stops where another device may answer (log 4). -/
  | hostOutsideWindow
  deriving DecidableEq, Repr

/-- Why a step has no meaning. -/
inductive Refusal where
  /-- Raised by an arm of `exec` that has no meaning yet. Safe. -/
  | notModelled (mnemonic : String)
  /-- Raised by a host access that is not one aligned 32-bit access: "A model must refuse such an access and give it no
  meaning" (R53). Safe (log 5). -/
  | hostPartialAccess
  deriving DecidableEq, Repr

/-- The state of the machine. -/
structure State where
  /-- `CFG`, the argument of the model (R6); the model's own field (log 1). -/
  cfg : Cfg
  /-- `ARG0` to `ARG5` (R23). -/
  args : Args
  /-- `STATUS.BUSY` (R24). -/
  busy : Bool
  /-- `STATUS.INIT_DONE` (R24, R29). -/
  initDone : Bool
  /-- `STATUS.ERR_STICKY` (R24). -/
  errSticky : Bool
  /-- `STATUS.ERR_CODE` (R24). -/
  errCode : BitVec 4
  /-- `RESULT` (R25). -/
  result : Word
  /-- The output lines (R26). -/
  lines : Lines
  /-- `EXEC` (R27). -/
  execState : Exec
  /-- The level of `RST_N` in the last cycle (R240). -/
  rstN : Bool
  /-- The host's program still to be played, one operation a cycle (log 6). -/
  host : List HostOp
  /-- The value the last cycle's host read returned (log 17). -/
  readData : Option Word
  /-- The reference receiver (R67). -/
  chip : Chip
  /-- The wire has no reading until the chip is reset (R257; the model's own field, log 13). -/
  chipLost : Bool
  /-- Block clock cycles since the start of the run (the model's own field, log 17). -/
  cycle : Nat
  /-- Every `Set` emitted so far, in order (R260; the model's own field, log 17). -/
  trace : List TraceEvent
  /-- The index of the next free value (the model's own field). -/
  draws : Nat
  deriving DecidableEq, Repr

/-- The lines after block reset (R33). -/
def Lines.reset (c : Cfg) : Lines where
  csN := true
  sclk := false
  sdio0 := false
  sdio1 := false
  sdio2 := false
  sdio3 := false
  ioUpdate := false
  ddsReset := !c.resetActiveLevel
  pwrDwnN := true

/-- The operand registers after block reset (R33). -/
def Args.reset : Args := ⟨0, 0, 0, 0, 0, 0⟩

/-- The machine right after block reset (R33), under the configuration `c`, with an empty host program. -/
def State.resetWith (c : Cfg) : State where
  cfg := c
  args := Args.reset
  busy := false
  initDone := false
  errSticky := false
  errCode := 0
  result := 0
  lines := Lines.reset c
  execState := .idle
  rstN := true
  host := []
  readData := none
  chip := Config.freeChip 0
  chipLost := false
  cycle := 0
  trace := []
  draws := 1

/-- The machine right after block reset, under the values R6 gives `CFG`. -/
def State.reset : State := State.resetWith Config.platform

end Sys2Proof.Machine
end

