-- ==== Sys2Proof/Machine/Flags.lean ====
section
/-! DEFINITION. The status fields (10_state R24), the error codes (60_exceptions R210) and the order of checks
(R211, R215). DDS-ENC has no condition codes or arithmetic flags (R30). -/

namespace Sys2Proof.Machine

/-- `ERR_NONE`, the code of an accepted command (R210). -/
def errNone : BitVec 4 := 0

/-- The number of an error code (R210). -/
def ErrCode.code : ErrCode → BitVec 4
  | .badOpcode => 1
  | .busy => 2
  | .notInit => 3
  | .reinit => 4
  | .badChannel => 5
  | .badAddress => 6
  | .badLength => 7
  | .freqRange => 8

/-- `STATUS` as the host reads it (R24): `ERR_CODE` in bits 7:4, `ERR_STICKY` bit 2, `INIT_DONE` bit 1, `BUSY` bit 0,
every other bit 0. -/
def statusWord (s : State) : Word :=
  0#24 ++ s.errCode ++ 0#1 ++ BitVec.ofBool s.errSticky ++ BitVec.ofBool s.initDone ++ BitVec.ofBool s.busy

/-- `EXEC ≠ Idle` (R27). -/
def Exec.isRunning : Exec → Bool
  | .idle => false
  | .running _ _ _ => true

/-- Run checks in order: the code of the first that fails, none if all hold (R211, R215). -/
def firstError : List (Bool × ErrCode) → Option ErrCode
  | [] => none
  | (holds, e) :: rest => if holds then firstError rest else some e

end Sys2Proof.Machine
end

