-- ==== Sys2Proof/Decode.lean ====
section
/-! DEFINITION. Decoding and encoding of command words (30_encoding R80-R82, R88) and frames (R86, R87, R89), with the
byte-order and bit-order helpers they share with the rest of the model (00_scope R9, 20_memory R59). -/

namespace Sys2Proof

/-! ### Bytes and bits -/

/-- `BE_n(v)`: the big-endian list of the low `n` bytes of `v` (R9). -/
def beBytes : Nat → Nat → List Byte
  | 0, _ => []
  | n + 1, v => BitVec.ofNat 8 (v >>> (8 * n)) :: beBytes n v

/-- The value of a big-endian byte list (R59, R85). -/
def ofBytes (p : List Byte) : Nat :=
  p.foldl (fun acc b => acc * 256 + b.toNat) 0

/-- The bits of a byte in wire order, most significant first (R59). -/
def byteBits (b : Byte) : List Bool :=
  [b.getLsbD 7, b.getLsbD 6, b.getLsbD 5, b.getLsbD 4, b.getLsbD 3, b.getLsbD 2, b.getLsbD 1, b.getLsbD 0]

/-- The byte whose bits, most significant first, are `bits` (R59, R68). -/
def bitsToByte (bits : List Bool) : Byte :=
  BitVec.ofNat 8 (bits.foldl (fun acc b => 2 * acc + b.toNat) 0)

/-- The first `n` bytes of a bit string in wire order. -/
def bitsToBytes : Nat → List Bool → List Byte
  | 0, _ => []
  | n + 1, bits => bitsToByte (bits.take 8) :: bitsToBytes n (bits.drop 8)

/-! ### The chip register map -/

/-- The address of a chip register (R55). -/
def ChipReg.addr : ChipReg → Byte
  | .csr => 0x00 | .fr1 => 0x01 | .fr2 => 0x02 | .cfr => 0x03 | .cftw => 0x04 | .cpow => 0x05
  | .acr => 0x06 | .lsrr => 0x07 | .rdw => 0x08 | .fdw => 0x09 | .cw1 => 0x0A

/-- `W(a)`, the width of a chip register in bytes (R55; 0x0A: R58). -/
def ChipReg.width : ChipReg → Nat
  | .csr => 1 | .fr1 => 3 | .fr2 => 3 | .cfr => 3 | .cftw => 4 | .cpow => 2
  | .acr => 3 | .lsrr => 2 | .rdw => 4 | .fdw => 4 | .cw1 => 4

/-- The registers in address order. -/
def ChipReg.all : List ChipReg :=
  [.csr, .fr1, .fr2, .cfr, .cftw, .cpow, .acr, .lsrr, .rdw, .fdw, .cw1]

/-- The register at an address; none outside the map (R55). -/
def ChipReg.ofAddr? (a : Byte) : Option ChipReg :=
  ChipReg.all.find? fun r => r.addr == a

/-- The frame that writes `payload` to register `r`. -/
def ChipReg.frame (r : ChipReg) (payload : List Byte) : Instr :=
  match r with
  | .csr => .frCsr payload
  | .fr1 => .frFr1 payload
  | .fr2 => .frFr2 payload
  | .cfr => .frCfr payload
  | .cftw => .frCftw payload
  | .cpow => .frCpow payload
  | .acr => .frAcr payload
  | .lsrr => .frLsrr payload
  | .rdw => .frRdw payload
  | .fdw => .frFdw payload
  | .cw1 => .frCw1 payload

/-! ### Command words -/

/-- `OP` of a command (R82). -/
def Opcode.bits : Opcode → Word
  | .init => 0x1 | .selectChannel => 0x2 | .latchUpdate => 0x3 | .writeReg => 0x4
  | .cfgFixedTone => 0x5 | .cfgFreqSweep => 0x6 | .cfgPhaseSweep => 0x7 | .cfgAmpSweep => 0x8
  | .encFreq => 0x9 | .encPhase => 0xA | .encAmp => 0xB | .encAmpSweep => 0xC | .encPhaseSweep => 0xD

/-- The opcodes in numerical order. -/
def Opcode.all : List Opcode :=
  [.init, .selectChannel, .latchUpdate, .writeReg, .cfgFixedTone, .cfgFreqSweep, .cfgPhaseSweep, .cfgAmpSweep,
   .encFreq, .encPhase, .encAmp, .encAmpSweep, .encPhaseSweep]

/-- The command with opcode `op` whose `CH` field is `ch`; a command that takes no channel ignores it (R82, R83). -/
def Opcode.command (op : Opcode) (ch : Byte) : Instr :=
  match op with
  | .init => .init
  | .selectChannel => .selectChannel ch
  | .latchUpdate => .latchUpdate
  | .writeReg => .writeReg
  | .cfgFixedTone => .cfgFixedTone ch
  | .cfgFreqSweep => .cfgFreqSweep ch
  | .cfgPhaseSweep => .cfgPhaseSweep ch
  | .cfgAmpSweep => .cfgAmpSweep ch
  | .encFreq => .encFreq
  | .encPhase => .encPhase
  | .encAmp => .encAmp
  | .encAmpSweep => .encAmpSweep
  | .encPhaseSweep => .encPhaseSweep

/-- The bits of `CMD` that select the command (R81): every bit but `CH`. -/
def commandMask : Word := 0xFFFF00FF

/-- `CH`, bits 15:8 of `CMD` (R81). -/
def channelField (v : Word) : Byte := v.extractLsb' 8 8

/-- Decode a `CMD` value: under the mask it must equal one row's match, else it is reserved (R81, R88). -/
def decodeCommand (v : Word) : Except DecodeError Instr :=
  match Opcode.all.find? fun op => op.bits == v &&& commandMask with
  | some op => .ok (op.command (channelField v))
  | none => .error .reservedCommand

/-- The `CMD` value of an opcode and a channel field (R81, R91). -/
def commandWord (op : Opcode) (ch : Byte) : Word :=
  op.bits ||| (ch.zeroExtend 32 <<< 8)

/-! ### Frames -/

/-- Decode the bytes of a frame: the first is the address, and it alone fixes the payload's length (R87). -/
def decodeFrame : List Byte → Except DecodeError Instr
  | [] => .error .noAddress
  | a :: payload =>
    match ChipReg.ofAddr? a with
    | none => .error .badAddress
    | some r => if payload.length = r.width then .ok (r.frame payload) else .error .badLength

/-- Decode either kind of code; total, rejecting by name. -/
def decode : Code → Except DecodeError Instr
  | .command v => decodeCommand v
  | .frame bytes => decodeFrame bytes

/-! ### The encoder -/

/-- The code of an instruction: the `CMD` value of a command (`CH` 0 where it takes none, R91), the address and payload
bytes of a frame (R86). -/
def encode : Instr → Code
  | .init => .command (commandWord .init 0)
  | .selectChannel ch => .command (commandWord .selectChannel ch)
  | .latchUpdate => .command (commandWord .latchUpdate 0)
  | .writeReg => .command (commandWord .writeReg 0)
  | .cfgFixedTone ch => .command (commandWord .cfgFixedTone ch)
  | .cfgFreqSweep ch => .command (commandWord .cfgFreqSweep ch)
  | .cfgPhaseSweep ch => .command (commandWord .cfgPhaseSweep ch)
  | .cfgAmpSweep ch => .command (commandWord .cfgAmpSweep ch)
  | .encFreq => .command (commandWord .encFreq 0)
  | .encPhase => .command (commandWord .encPhase 0)
  | .encAmp => .command (commandWord .encAmp 0)
  | .encAmpSweep => .command (commandWord .encAmpSweep 0)
  | .encPhaseSweep => .command (commandWord .encPhaseSweep 0)
  | .frCsr p => .frame (ChipReg.csr.addr :: p)
  | .frFr1 p => .frame (ChipReg.fr1.addr :: p)
  | .frFr2 p => .frame (ChipReg.fr2.addr :: p)
  | .frCfr p => .frame (ChipReg.cfr.addr :: p)
  | .frCftw p => .frame (ChipReg.cftw.addr :: p)
  | .frCpow p => .frame (ChipReg.cpow.addr :: p)
  | .frAcr p => .frame (ChipReg.acr.addr :: p)
  | .frLsrr p => .frame (ChipReg.lsrr.addr :: p)
  | .frRdw p => .frame (ChipReg.rdw.addr :: p)
  | .frFdw p => .frame (ChipReg.fdw.addr :: p)
  | .frCw1 p => .frame (ChipReg.cw1.addr :: p)

/-! ### The table's numbering -/

/-- The bytes of the frame that starts at bit 0 of `w`: its address byte, then as many payload bytes as the address asks
for, each later byte 8 bits further up (log 10). -/
def tableFrameBytes (w : Nat) : List Byte :=
  let a : Byte := BitVec.ofNat 8 w
  let n := match ChipReg.ofAddr? a with | some r => r.width | none => 0
  (List.range (n + 1)).map fun k => BitVec.ofNat 8 (w >>> (8 * k))

/-- The code that `nbits` bits `w` of the opcode table stand for: a 32-bit row is read as a command word where that
decodes, and anything else as a frame (log 10). Bits above `nbits` are 0. -/
def tableCode (nbits w : Nat) : Code :=
  let v := w % 2 ^ nbits
  let command : Word := BitVec.ofNat 32 v
  let isCommand := match decodeCommand command with | .ok _ => true | .error _ => false
  if nbits = 32 ∧ isCommand = true then .command command
  else
    match decodeFrame (tableFrameBytes v) with
    | .ok _ => .frame (tableFrameBytes v)
    | .error _ => .command command

/-- The instruction the decoder reads from a row's bits as the opcode table numbers them; none where it refuses them. -/
def decodeTableWord (nbits w : Nat) : Option Instr :=
  match decode (tableCode nbits w) with
  | .ok i => some i
  | .error _ => none

end Sys2Proof
end

