-- ==== Sys2Proof/Machine/Encoder.lean ====
section
/-! DEFINITION. The encoder functions (40_encoder R110-R117), the channel-select byte (R113) and the reference decoders
(R118). All arithmetic is exact, on naturals (00_scope R8); the functions read only their operands and `F_SYSCLK`
(R123). -/

namespace Sys2Proof.Machine

/-- `FTW(f)`, the quotient rounded down (R110, 90_conflicts C1). -/
def ftw (fSysclk : Nat) (f : Word) : Nat := (f.toNat <<< 32) / fSysclk

/-- `FTW_VALID(f)`, in the form `f < F_SYSCLK` (R110); with `F_SYSCLK = 0` no operand is valid (log 15). -/
def ftwValid (fSysclk : Nat) (f : Word) : Bool := decide (f.toNat < fSysclk)

/-- `FTW_BYTES(f)` (R110). -/
def ftwBytes (fSysclk : Nat) (f : Word) : List Byte := beBytes 4 (ftw fSysclk f)

/-- `PW(p)`, rounded to nearest and reduced mod `2^14` (R111). -/
def pw (p : Word) : Nat := (p.toNat * 2 ^ 14 + 180) / 360 % 2 ^ 14

/-- `PW_BYTES(p)` (R111). -/
def pwBytes (p : Word) : List Byte := beBytes 2 (pw p)

/-- `AW(a)`, the low ten bits (R112). -/
def aw (a : Word) : Nat := a.toNat &&& 0x3FF

/-- `CSR_BYTE(ch)`, for `ch` 0 to 3 (R113). -/
def csrByte (ch : Byte) : Byte := 0x10#8 <<< ch.toNat

/-- `ACR_BYTES(a, base)` (R114): the mask comes before the split (90_conflicts C2), and the amplitude's top bits are ORed
into the baseline. -/
def acrBytes (a : Word) (base : BitVec 16) : List Byte :=
  [base.extractLsb' 8 8,
   base.extractLsb' 0 8 ||| BitVec.ofNat 8 (aw a >>> 8),
   BitVec.ofNat 8 (aw a &&& 0xFF)]

/-- `ASW(a)` (R115). -/
def asw (a : Word) : Nat := aw a <<< 22

/-- `ASW_BYTES(a)` (R115). -/
def aswBytes (a : Word) : List Byte := beBytes 4 (asw a)

/-- `PSW(p)` (R116). -/
def psw (p : Word) : Nat := pw p <<< 18

/-- `PSW_BYTES(p)` (R116). -/
def pswBytes (p : Word) : List Byte := beBytes 4 (psw p)

/-- `decode_frequency(w)` in hertz, an exact rational (R118). -/
def decodeFrequency (fSysclk : Nat) (w : Nat) : Rat := (w * fSysclk : Nat) / (2 ^ 32 : Nat)

/-- `decode_phase(w)` in degrees, an exact rational (R118). -/
def decodePhase (w : Nat) : Rat := (w * 360 : Nat) / (2 ^ 14 : Nat)

/-- `decode_amplitude` of an `ACR` payload (R118); none for a list that is no such payload. -/
def decodeAmplitude : List Byte → Option Nat
  | [_, b1, b2] => some (((b1 &&& 0x3).toNat <<< 8) ||| b2.toNat)
  | _ => none

end Sys2Proof.Machine
end

