-- ==== Sys2Proof/Machine/Operands.lean ====
section
/-! DEFINITION. Operand forms (30_encoding R83-R85): whole 32-bit `ARG` registers, the channel field of the command, and
the packed forms of `WRITE_REG` and `ENC_AMP`. -/

namespace Sys2Proof.Machine

/-- `ch ≤ 3`: the channel is one of the `NUM_CHANNELS` (R84, R215). -/
def channelOk (ch : Byte) : Bool := decide (ch.toNat < Config.numChannels)

/-- `addr = ARG[0][7:0]` of `WRITE_REG` (R85). -/
def writeRegAddr (a : Args) : Byte := a.a0.extractLsb' 0 8

/-- `len = ARG[0][15:8]` of `WRITE_REG` (R85). -/
def writeRegLen (a : Args) : Byte := a.a0.extractLsb' 8 8

/-- `BE_len(ARG[1][8·len-1:0])`, the payload of `WRITE_REG` (R85, R146). -/
def writeRegPayload (a : Args) : List Byte := beBytes (writeRegLen a).toNat a.a1.toNat

/-- `addr ≤ 0x0A`: the address is in the register map (R146). -/
def addressOk (a : Byte) : Bool := (ChipReg.ofAddr? a).isSome

/-- `len = W(addr)` (R146). -/
def lengthOk (a len : Byte) : Bool :=
  match ChipReg.ofAddr? a with
  | some r => len.toNat == r.width
  | none => false

/-- `base = ARG[1][15:0]` of `ENC_AMP` (R85, R132). -/
def ampBase (a : Args) : BitVec 16 := a.a1.extractLsb' 0 16

/-- `BE_3(v)` (R9). -/
def be3 (v : BitVec 24) : List Byte := beBytes 3 v.toNat

/-- `BE_2(v)` (R9). -/
def be2 (v : BitVec 16) : List Byte := beBytes 2 v.toNat

end Sys2Proof.Machine
end

