-- ==== Sys2Proof/Machine/Ops.lean ====
section
/-! DEFINITION. The named operations on the state that the meanings share: registers and lines, rejecting a command
(60_exceptions R212, the block's only exception), accepting one (R211), issuing an event list (R214), and drawing the
receiver's contents. There is no memory (20_memory R50; log 20) and no return from an exception (R218). -/

namespace Sys2Proof.Machine

/-! ### Lines -/

/-- The level of a line (R26). -/
def Lines.get (ls : Lines) : Line → Bool
  | .csN => ls.csN
  | .sclk => ls.sclk
  | .sdio0 => ls.sdio0
  | .sdio1 => ls.sdio1
  | .sdio2 => ls.sdio2
  | .sdio3 => ls.sdio3
  | .ioUpdate => ls.ioUpdate
  | .ddsReset => ls.ddsReset
  | .pwrDwnN => ls.pwrDwnN

/-- Drive one line; every other keeps its level (R26). -/
def Lines.set (ls : Lines) (l : Line) (v : Bool) : Lines :=
  match l with
  | .csN => { ls with csN := v }
  | .sclk => { ls with sclk := v }
  | .sdio0 => { ls with sdio0 := v }
  | .sdio1 => { ls with sdio1 := v }
  | .sdio2 => { ls with sdio2 := v }
  | .sdio3 => { ls with sdio3 := v }
  | .ioUpdate => { ls with ioUpdate := v }
  | .ddsReset => { ls with ddsReset := v }
  | .pwrDwnN => { ls with pwrDwnN := v }

/-! ### Chip registers of the reference receiver -/

/-- Replace a whole chip register (R60), its payload read big-endian (R59). `CSR` is in no bank. -/
def writeBank (b : RegBank) (r : ChipReg) (p : List Byte) : RegBank :=
  match r with
  | .csr => b
  | .fr1 => { b with fr1 := BitVec.ofNat 24 (ofBytes p) }
  | .fr2 => { b with fr2 := BitVec.ofNat 24 (ofBytes p) }
  | .cfr => { b with cfr := BitVec.ofNat 24 (ofBytes p) }
  | .cftw => { b with cftw := BitVec.ofNat 32 (ofBytes p) }
  | .cpow => { b with cpow := BitVec.ofNat 16 (ofBytes p) }
  | .acr => { b with acr := BitVec.ofNat 24 (ofBytes p) }
  | .lsrr => { b with lsrr := BitVec.ofNat 16 (ofBytes p) }
  | .rdw => { b with rdw := BitVec.ofNat 32 (ofBytes p) }
  | .fdw => { b with fdw := BitVec.ofNat 32 (ofBytes p) }
  | .cw1 => { b with cw1 := BitVec.ofNat 32 (ofBytes p) }

/-- The payload a bank holds for a register (R59, R67). -/
def readBank (b : RegBank) : ChipReg → List Byte
  | .csr => []
  | .fr1 => beBytes 3 b.fr1.toNat
  | .fr2 => beBytes 3 b.fr2.toNat
  | .cfr => beBytes 3 b.cfr.toNat
  | .cftw => beBytes 4 b.cftw.toNat
  | .cpow => beBytes 2 b.cpow.toNat
  | .acr => beBytes 3 b.acr.toNat
  | .lsrr => beBytes 2 b.lsrr.toNat
  | .rdw => beBytes 4 b.rdw.toNat
  | .fdw => beBytes 4 b.fdw.toNat
  | .cw1 => beBytes 4 b.cw1.toNat

/-- Every component of the receiver becomes an unknown value, drawn afresh (R68, R71; U8, U9; log 11, log 12). -/
def State.drawChip (s : State) : State :=
  { s with chip := Config.freeChip s.draws, draws := s.draws + 1 }

/-- The chip is held in reset: `DDS_RESET = RESET_ACTIVE_LEVEL` (R71). -/
def State.chipInReset (s : State) : Bool := s.lines.ddsReset == s.cfg.resetActiveLevel

/-- What the reset does to the receiver (R71): everything unknown, and the wire has a reading again (log 13). -/
def State.chipReset (s : State) : State :=
  { s.drawChip with chipLost := false }

/-! ### Rejecting and accepting a command -/

/-- `reject(e)` (R212): `ERR_CODE <- e`, `ERR_STICKY <- 1`, and nothing else. -/
def State.reject (s : State) (e : ErrCode) : State :=
  { s with errCode := e.code, errSticky := true }

/-- The sum of the `Wait` markers at the head of an event list. -/
def leadingWait : List Event → Nat
  | .wait t :: rest => t + leadingWait rest
  | _ => 0

/-- The lower bound on the gap before the next `Set` or the completion: `max(1, T_1 + … + T_k)` (R250). -/
def minGap (events : List Event) : Nat := max 1 (leadingWait events)

/-- `EXEC <- Running(op, events)`, with the next event no earlier than `minGap` cycles from this one and a free number of
cycles later (R250; log 7). A list that ends in a `Set` without a `Wait` (`UPD`) completes at least one cycle after that
`Set`, never in its step: the spec does not say which. DESIGN CHOICE, unsafe (log 28). -/
def State.running (s : State) (op : Opcode) (events : List Event) : State :=
  { s with
    execState := .running op events (minGap events - 1 + Config.freeDelay s.draws)
    draws := s.draws + 1 }

/-- `issue(E)` (R214): `EXEC <- Running(op, E)` and `BUSY <- 1` in the acceptance step. -/
def State.issue (s : State) (op : Opcode) (events : List Event) : State :=
  { s.running op events with busy := true }

/-- Offer a command (R211): `ERR_BUSY` while one runs; else the first failing check rejects it; else it is accepted,
`ERR_CODE <- ERR_NONE`, and takes its effect. -/
def offer (s : State) (checks : List (Bool × ErrCode)) (effect : State → State) :
    Host.Outcome State Fault Refusal :=
  if s.execState.isRunning then .next (s.reject .busy)
  else
    match firstError checks with
    | some e => .next (s.reject e)
    | none => .next (effect { s with errCode := errNone })

/-- What a `CMD` value that decodes to no command does (R88, R211, R215): `ERR_BUSY` while a command runs, else
`ERR_BAD_OPCODE` (log 23). -/
def State.rejectReserved (s : State) : State :=
  if s.execState.isRunning then s.reject .busy else s.reject .badOpcode

end Sys2Proof.Machine
end

