-- ==== Sys2Proof/Machine/Events.lean ====
section
/-! DEFINITION. The event lists: one frame (41_transport R141), channel selection (42_channel_controller R160), the update
pulse (R163) and the chip reset sequence (R165). -/

namespace Sys2Proof.Machine

/-- One bit: clock low, data, clock high (R141). -/
def bitEvents (c : Cfg) (b : Bool) : List Event :=
  [.set .sclk false, .set .sdio0 b, .wait c.tSclkLow, .set .sclk true, .wait c.tSclkHigh]

/-- One byte, most significant bit first (R141). -/
def byteEvents (c : Cfg) (b : Byte) : List Event := (byteBits b).flatMap (bitEvents c)

/-- What ends a frame after its last bit (R141). -/
def frameTail (c : Cfg) : List Event := [.wait c.tCsHold, .set .csN true, .wait c.tCsIdle]

/-- `Frame(a, p)` (R141). -/
def frame (c : Cfg) (a : Byte) (p : List Byte) : List Event :=
  [.set .csN false, .wait c.tCsSetup] ++ (a :: p).flatMap (byteEvents c) ++ frameTail c

/-- `Frame(a, p)` for a register by its label. -/
def regFrame (c : Cfg) (r : ChipReg) (p : List Byte) : List Event := frame c r.addr p

/-- `SEL(ch)` (R160). -/
def sel (c : Cfg) (ch : Byte) : List Event := regFrame c .csr [csrByte ch]

/-- `UPD` (R163): three `Set`s (log 16). -/
def upd (c : Cfg) : List Event :=
  [.set .ioUpdate false, .wait c.tUpdPre, .set .ioUpdate true, .wait c.tUpdHigh, .set .ioUpdate false]

/-- `INIT_EVENTS` (R165): the idle levels, then the pulse low, idle, active, idle (90_conflicts C3). -/
def initEvents (c : Cfg) : List Event :=
  [.set .csN true, .set .sclk false, .set .sdio0 false, .set .sdio1 false, .set .sdio2 false, .set .sdio3 false,
   .set .ioUpdate false, .set .pwrDwnN true, .set .ddsReset (!c.resetActiveLevel)] ++
  [.set .ddsReset false, .wait c.tRst1,
   .set .ddsReset (!c.resetActiveLevel), .wait c.tRst2,
   .set .ddsReset c.resetActiveLevel, .wait c.tRst3,
   .set .ddsReset (!c.resetActiveLevel), .wait c.tRst4]

end Sys2Proof.Machine
end

