-- ==== Sys2Proof/Machine/ChannelController.lean ====
section
/-! DEFINITION. The commands of the channel controller (42_channel_controller R161, R164, R165) and of the transmitter
(41_transport R146). -/

namespace Sys2Proof.Machine

/-- `INIT` (R165): rejected once `INIT_DONE` is 1, which its completion sets (R166, R167). -/
def execInit (s : State) : Host.Outcome State Fault Refusal :=
  offer s [(!s.initDone, .reinit)] fun t => t.issue .init (initEvents t.cfg)

/-- `SELECT_CHANNEL` (R161). -/
def execSelectChannel (ch : Byte) (s : State) : Host.Outcome State Fault Refusal :=
  offer s [(s.initDone, .notInit), (channelOk ch, .badChannel)] fun t => t.issue .selectChannel (sel t.cfg ch)

/-- `LATCH_UPDATE` (R164). -/
def execLatchUpdate (s : State) : Host.Outcome State Fault Refusal :=
  offer s [(s.initDone, .notInit)] fun t => t.issue .latchUpdate (upd t.cfg)

/-- `WRITE_REG` (R146): the content of the payload is not checked. -/
def execWriteReg (s : State) : Host.Outcome State Fault Refusal :=
  offer s
    [(s.initDone, .notInit),
     (addressOk (writeRegAddr s.args), .badAddress),
     (lengthOk (writeRegAddr s.args) (writeRegLen s.args), .badLength)]
    fun t => t.issue .writeReg (frame t.cfg (writeRegAddr t.args) (writeRegPayload t.args))

end Sys2Proof.Machine
end

