-- ==== Sys2Proof/Machine/EncodeCommands.lean ====
section
/-! DEFINITION. The five `ENC_*` commands (40_encoder R130-R134). They complete at acceptance, write `RESULT` and
`ERR_CODE`, drive no line and need no `INIT`. -/

namespace Sys2Proof.Machine

/-- An `ENC_*` command: `RESULT <- v`, `EXEC` stays `Idle` (R211). -/
def encodeCommand (s : State) (checks : List (Bool × ErrCode)) (v : Nat) : Host.Outcome State Fault Refusal :=
  offer s checks fun t => { t with result := BitVec.ofNat 32 v }

/-- `ENC_FREQ` (R130). -/
def execEncFreq (s : State) : Host.Outcome State Fault Refusal :=
  encodeCommand s [(ftwValid s.cfg.fSysclk s.args.a0, .freqRange)] (ftw s.cfg.fSysclk s.args.a0)

/-- `ENC_PHASE` (R131). -/
def execEncPhase (s : State) : Host.Outcome State Fault Refusal :=
  encodeCommand s [] (pw s.args.a0)

/-- `ENC_AMP` (R132): the three bytes right-aligned in `RESULT` (R85). -/
def execEncAmp (s : State) : Host.Outcome State Fault Refusal :=
  encodeCommand s [] (ofBytes (acrBytes s.args.a0 (ampBase s.args)))

/-- `ENC_AMP_SWEEP` (R133). -/
def execEncAmpSweep (s : State) : Host.Outcome State Fault Refusal :=
  encodeCommand s [] (asw s.args.a0)

/-- `ENC_PHASE_SWEEP` (R134). -/
def execEncPhaseSweep (s : State) : Host.Outcome State Fault Refusal :=
  encodeCommand s [] (psw s.args.a0)

end Sys2Proof.Machine
end

