-- ==== Sys2Proof/Machine/Frames.lean ====
section
/-! DEFINITION. The meaning of the frames: what the reference receiver does with a complete write of payload `p` to
address `a` (20_memory R69; log 9). The transmitter's side, the event list `Frame(a, p)`, is `frame` in
Machine/Events.lean; Machine/Receiver.lean reads it back. -/

namespace Sys2Proof.Machine

/-- The premises of R69: outside them the receiver's contents are unknown. In chip reset (R71), without a reading of the
wire (R257; log 13), or with a payload that is no complete write of the register (R68; log 12), everything is drawn. -/
def State.onWrite (s : State) (r : ChipReg) (p : List Byte) (write : State → State) : State :=
  if s.chipInReset then s.chipReset
  else if s.chipLost || p.length != r.width then s.drawChip
  else write s

/-- `CSR <- p[0]`, at once (R69); a payload with bits [3:0] not 0 leaves later wire activity without a reading (R257). -/
def State.writeCsr (s : State) (p : List Byte) : State :=
  let v := p.headD 0
  { s with chip := { s.chip with csr := v }, chipLost := v &&& 0x0F != 0 }

/-- Bit `4 + c` of `CSR` enables channel `c` (R69). -/
def channelSelected (k : Chip) (c : Fin 4) : Bool := k.csr.getLsbD (4 + c.val)

/-- Stage a write for every selected channel, or globally where the register is not channel-scoped (R69). -/
def State.stage (s : State) (r : ChipReg) (p : List Byte) : State :=
  if r ∈ s.cfg.channelScoped then
    { s with chip := { s.chip with
        staged := Vector.ofFn fun c : Fin 4 =>
          if channelSelected s.chip c then writeBank s.chip.staged[c] r p else s.chip.staged[c] } }
  else
    { s with chip := { s.chip with stagedG := writeBank s.chip.stagedG r p } }

/-- A complete write of a register other than `CSR` (R69). -/
def frameWrite (r : ChipReg) (p : List Byte) (s : State) : Host.Outcome State Fault Refusal :=
  .next (s.onWrite r p fun t => t.stage r p)

/-- `FR_CSR` (R69, R86). -/
def execFrCsr (p : List Byte) (s : State) : Host.Outcome State Fault Refusal :=
  .next (s.onWrite .csr p fun t => t.writeCsr p)

/-- `FR_FR1` (R69, R86). -/
def execFrFr1 (p : List Byte) (s : State) : Host.Outcome State Fault Refusal := frameWrite .fr1 p s

/-- `FR_FR2` (R69, R86). -/
def execFrFr2 (p : List Byte) (s : State) : Host.Outcome State Fault Refusal := frameWrite .fr2 p s

/-- `FR_CFR` (R69, R86). -/
def execFrCfr (p : List Byte) (s : State) : Host.Outcome State Fault Refusal := frameWrite .cfr p s

/-- `FR_CFTW` (R69, R86). -/
def execFrCftw (p : List Byte) (s : State) : Host.Outcome State Fault Refusal := frameWrite .cftw p s

/-- `FR_CPOW` (R69, R86). -/
def execFrCpow (p : List Byte) (s : State) : Host.Outcome State Fault Refusal := frameWrite .cpow p s

/-- `FR_ACR` (R69, R86). -/
def execFrAcr (p : List Byte) (s : State) : Host.Outcome State Fault Refusal := frameWrite .acr p s

/-- `FR_LSRR` (R69, R86). -/
def execFrLsrr (p : List Byte) (s : State) : Host.Outcome State Fault Refusal := frameWrite .lsrr p s

/-- `FR_RDW` (R69, R86). -/
def execFrRdw (p : List Byte) (s : State) : Host.Outcome State Fault Refusal := frameWrite .rdw p s

/-- `FR_FDW` (R69, R86). -/
def execFrFdw (p : List Byte) (s : State) : Host.Outcome State Fault Refusal := frameWrite .fdw p s

/-- `FR_CW1` (R69, R86). -/
def execFrCw1 (p : List Byte) (s : State) : Host.Outcome State Fault Refusal := frameWrite .cw1 p s

end Sys2Proof.Machine
end

