-- ==== Sys2Proof/Machine/ModeSequencer.lean ====
section
/-! DEFINITION. The four configuration commands (43_mode_sequencer R180-R190). Each event list is a function of `CFG`,
the channel, the operands and, under `UNCONSTRAINED`, one free draw (10_state R34). -/

namespace Sys2Proof.Machine

/-- The shadow slot's payload (R189, R190): the end value freshly encoded under `INTENDED`, the draw under
`UNCONSTRAINED`. -/
def shadowBytes (c : Cfg) (intended : List Byte) (draw : BitVec 32) : List Byte :=
  match c.shadowEndPolicy with
  | .intended => intended
  | .unconstrained => beBytes 4 draw.toNat

/-- The list of `CFG_FIXED_TONE` (R182): `ARG` holds f, p, a. -/
def fixedToneEvents (c : Cfg) (ch : Byte) (a : Args) : List Event :=
  sel c ch
    ++ regFrame c .fr1 (be3 c.fr1Value)
    ++ regFrame c .cfr (be3 c.cfrFixed)
    ++ regFrame c .acr (acrBytes a.a2 c.acrBaseFixed)
    ++ regFrame c .cpow (pwBytes a.a1)
    ++ regFrame c .cftw (ftwBytes c.fSysclk a.a0)
    ++ upd c

/-- The list of `CFG_FREQ_SWEEP` (R183): `ARG` holds fs, fe, ru, rd, p, a. -/
def freqSweepEvents (c : Cfg) (ch : Byte) (a : Args) : List Event :=
  sel c ch
    ++ regFrame c .fr1 (be3 c.fr1Value)
    ++ regFrame c .cfr (be3 c.cfrFsweep)
    ++ regFrame c .cftw (ftwBytes c.fSysclk a.a0)
    ++ regFrame c .cw1 (ftwBytes c.fSysclk a.a1)
    ++ regFrame c .rdw (ftwBytes c.fSysclk a.a2)
    ++ regFrame c .fdw (ftwBytes c.fSysclk a.a3)
    ++ regFrame c .lsrr (be2 c.srrFsweep)
    ++ regFrame c .acr (acrBytes a.a5 c.acrBaseFsweep)
    ++ regFrame c .cpow (pwBytes a.a4)
    ++ upd c

/-- The list of `CFG_PHASE_SWEEP` (R184): `ARG` holds f, ps, pe, ru, rd, a. -/
def phaseSweepEvents (c : Cfg) (ch : Byte) (a : Args) (draw : BitVec 32) : List Event :=
  sel c ch
    ++ regFrame c .fr1 (be3 c.fr1Value)
    ++ regFrame c .cfr (be3 c.cfrPsweep)
    ++ regFrame c .cftw (ftwBytes c.fSysclk a.a0)
    ++ regFrame c .cpow (pwBytes a.a1)
    ++ regFrame c .cw1 (shadowBytes c (pswBytes a.a2) draw)
    ++ regFrame c .rdw (pswBytes a.a3)
    ++ regFrame c .fdw (pswBytes a.a4)
    ++ regFrame c .lsrr (be2 c.srrPsweep)
    ++ regFrame c .acr (acrBytes a.a5 c.acrBasePsweep)
    ++ upd c

/-- The list of `CFG_AMP_SWEEP` (R185): `ARG` holds f, p, as, ae, ru, rd. -/
def ampSweepEvents (c : Cfg) (ch : Byte) (a : Args) (draw : BitVec 32) : List Event :=
  sel c ch
    ++ regFrame c .fr1 (be3 c.fr1Value)
    ++ regFrame c .cfr (be3 c.cfrAsweep)
    ++ regFrame c .acr (acrBytes a.a2 c.acrBaseAsweep)
    ++ regFrame c .cw1 (shadowBytes c (aswBytes a.a3) draw)
    ++ regFrame c .rdw (aswBytes a.a4)
    ++ regFrame c .fdw (aswBytes a.a5)
    ++ regFrame c .lsrr (be2 c.srrAsweep)
    ++ regFrame c .cpow (pwBytes a.a1)
    ++ regFrame c .cftw (ftwBytes c.fSysclk a.a0)
    ++ upd c

/-- The common validation (R181): `INIT_DONE`, the channel, then every frequency operand in `ARG` order. -/
def configChecks (s : State) (ch : Byte) (freqs : List Word) : List (Bool × ErrCode) :=
  [(s.initDone, .notInit), (channelOk ch, .badChannel)]
    ++ freqs.map fun f => (ftwValid s.cfg.fSysclk f, .freqRange)

/-- `CFG_FIXED_TONE` (R182). -/
def execCfgFixedTone (ch : Byte) (s : State) : Host.Outcome State Fault Refusal :=
  offer s (configChecks s ch [s.args.a0])
    fun t => t.issue .cfgFixedTone (fixedToneEvents t.cfg ch t.args)

/-- `CFG_FREQ_SWEEP` (R183). -/
def execCfgFreqSweep (ch : Byte) (s : State) : Host.Outcome State Fault Refusal :=
  offer s (configChecks s ch [s.args.a0, s.args.a1, s.args.a2, s.args.a3])
    fun t => t.issue .cfgFreqSweep (freqSweepEvents t.cfg ch t.args)

/-- `CFG_PHASE_SWEEP` (R184). -/
def execCfgPhaseSweep (ch : Byte) (s : State) : Host.Outcome State Fault Refusal :=
  offer s (configChecks s ch [s.args.a0])
    fun t => t.issue .cfgPhaseSweep (phaseSweepEvents t.cfg ch t.args (Config.freeShadow t.draws))

/-- `CFG_AMP_SWEEP` (R185). -/
def execCfgAmpSweep (ch : Byte) (s : State) : Host.Outcome State Fault Refusal :=
  offer s (configChecks s ch [s.args.a0])
    fun t => t.issue .cfgAmpSweep (ampSweepEvents t.cfg ch t.args (Config.freeShadow t.draws))

end Sys2Proof.Machine
end

