-- ==== Sys2Proof/Machine/Dispatch.lean ====
section
/-! DEFINITION. The dispatch from instructions to their meanings, one arm per constructor of Instr. -/

namespace Sys2Proof.Machine

def exec (i : Instr) (s : State) : Host.Outcome State Fault Refusal :=
  match i with
  | .init => Sys2Proof.Machine.execInit s
  | .selectChannel ch => Sys2Proof.Machine.execSelectChannel ch s
  | .latchUpdate => Sys2Proof.Machine.execLatchUpdate s
  | .writeReg => Sys2Proof.Machine.execWriteReg s
  | .cfgFixedTone ch => Sys2Proof.Machine.execCfgFixedTone ch s
  | .cfgFreqSweep ch => Sys2Proof.Machine.execCfgFreqSweep ch s
  | .cfgPhaseSweep ch => Sys2Proof.Machine.execCfgPhaseSweep ch s
  | .cfgAmpSweep ch => Sys2Proof.Machine.execCfgAmpSweep ch s
  | .encFreq => Sys2Proof.Machine.execEncFreq s
  | .encPhase => Sys2Proof.Machine.execEncPhase s
  | .encAmp => Sys2Proof.Machine.execEncAmp s
  | .encAmpSweep => Sys2Proof.Machine.execEncAmpSweep s
  | .encPhaseSweep => Sys2Proof.Machine.execEncPhaseSweep s
  | .frCsr p => Sys2Proof.Machine.execFrCsr p s
  | .frFr1 p => Sys2Proof.Machine.execFrFr1 p s
  | .frFr2 p => Sys2Proof.Machine.execFrFr2 p s
  | .frCfr p => Sys2Proof.Machine.execFrCfr p s
  | .frCftw p => Sys2Proof.Machine.execFrCftw p s
  | .frCpow p => Sys2Proof.Machine.execFrCpow p s
  | .frAcr p => Sys2Proof.Machine.execFrAcr p s
  | .frLsrr p => Sys2Proof.Machine.execFrLsrr p s
  | .frRdw p => Sys2Proof.Machine.execFrRdw p s
  | .frFdw p => Sys2Proof.Machine.execFrFdw p s
  | .frCw1 p => Sys2Proof.Machine.execFrCw1 p s

end Sys2Proof.Machine
end

