-- ==== Sys2Proof/Machine/Receiver.lean ====
section
/-! DEFINITION. The reference receiver's reading of the lines (20_memory R67, R68, R70, R71). It turns edges into bits, a
complete bit string into a frame instruction for `exec`, and an update edge into active registers. -/

namespace Sys2Proof.Machine

/-- The register a bit buffer addresses, once its first 8 bits are there (R68). -/
def bufReg (buf : List Bool) : Option ChipReg := ChipReg.ofAddr? (bitsToByte (buf.take 8))

/-- The write in the buffer is complete: `8 + 8·W(a)` bits (R68). -/
def bufComplete (buf : List Bool) : Bool :=
  decide (8 ≤ buf.length) &&
    match bufReg buf with
    | some r => buf.length == 8 * (1 + r.width)
    | none => false

/-- The frame in a complete buffer (R68, R87). -/
def bufFrame (buf : List Bool) : Option Instr :=
  match decodeFrame (bitsToBytes (buf.length / 8) buf) with
  | .ok i => some i
  | .error _ => none

/-- A rising edge of `SCLK` while `CS_N = 0` (R68): the bit on `SDIO0` is appended; after bit `8 + 8·W(a)` the frame is
handed on to be applied. Extra bits, or an address outside the map, leave everything unknown (R68, U8; log 12). -/
def State.shiftIn (s : State) : State × Option Instr :=
  let buf := s.chip.buf ++ [s.lines.sdio0]
  let kept := { s with chip := { s.chip with buf := buf } }
  if buf.length < 8 then (kept, none)
  else
    match bufReg buf with
    | none => (s.drawChip, none)
    | some r =>
      if buf.length < 8 * (1 + r.width) then (kept, none)
      else if buf.length = 8 * (1 + r.width) then (kept, bufFrame buf)
      else (s.drawChip, none)

/-- A rising edge of `CS_N` (R68): the frame is over; one cut before its write was complete leaves everything unknown
(R68, U8; log 12). -/
def State.endFrame (s : State) : State :=
  if s.chip.inFrame && !bufComplete s.chip.buf then s.drawChip
  else { s with chip := { s.chip with inFrame := false } }

/-- A falling edge of `CS_N` (R68). -/
def State.beginFrame (s : State) : State :=
  { s with chip := { s.chip with inFrame := true, buf := [] } }

/-- A rising edge of `IO_UPDATE` (R70): every staged payload becomes active, in one step. -/
def State.updateChip (s : State) : State :=
  { s with chip := { s.chip with active := s.chip.staged, activeG := s.chip.stagedG } }

/-- An edge the receiver reacts to (R68, R70). -/
def receiverEdge (old new : Lines) : Bool :=
  (old.csN != new.csN) || (!old.sclk && new.sclk && !new.csN) || (!old.ioUpdate && new.ioUpdate)

/-- What the receiver does when the lines have changed from `old` to those of `s` (R67-R71); the frame it completed, if it
did, is returned for `exec` to apply. Without a reading of the wire every edge leaves everything unknown (log 13). -/
def State.receive (s : State) (old : Lines) : State × Option Instr :=
  if s.chipInReset then (s.chipReset, none)
  else if !receiverEdge old s.lines then (s, none)
  else if s.chipLost then (s.drawChip, none)
  else if old.csN && !s.lines.csN then (s.beginFrame, none)
  else if !old.csN && s.lines.csN then (s.endFrame, none)
  else if !old.sclk && s.lines.sclk && !s.lines.csN then s.shiftIn
  else (s.updateChip, none)

end Sys2Proof.Machine
end

