-- ==== Sys2Proof/Machine/Block.lean ====
section
/-! DEFINITION. What the block does by itself in one clock cycle: emit the next event of the running command or complete
it (60_exceptions R214, 70_reset_and_hazards R250), and block reset (R240, R241). -/

namespace Sys2Proof.Machine

/-- The next `Set` of an event list past its leading `Wait` markers, with the events after it. -/
def nextSet : List Event → Option (Line × Bool × List Event)
  | [] => none
  | .wait _ :: rest => nextSet rest
  | .set l v :: rest => some (l, v, rest)

/-- Drive a line and record the event. -/
def State.emit (s : State) (l : Line) (v : Bool) : State :=
  { s with lines := s.lines.set l v, trace := s.trace ++ [⟨s.cycle, l, v⟩] }

/-- Completion (R214): `EXEC <- Idle`, `BUSY <- 0`, and for `INIT` also `INIT_DONE <- 1` (R166). -/
def State.complete (s : State) (op : Opcode) : State :=
  { s with execState := .idle, busy := false, initDone := s.initDone || op == .init }

/-- The block's part of a cycle: nothing while idle; else count down the gap, then emit one `Set`, which the receiver
sees, or complete. The frame the receiver completed, if it did, is returned for `exec` to apply. -/
def State.blockPhase (s : State) : State × Option Instr :=
  match s.execState with
  | .idle => (s, none)
  | .running op events (k + 1) => ({ s with execState := .running op events k }, none)
  | .running op events 0 =>
    match nextSet events with
    | none => (s.complete op, none)
    | some (l, v, rest) => ((s.emit l v).running op rest).receive s.lines

/-- Block reset (R240): every component of the block's record takes its reset value (R33), with no event; the receiver
sees the lines change, so a frame it cuts leaves the chip unknown (R241). -/
def State.blockReset (s : State) : State :=
  let t : State := { s with
    args := Args.reset
    busy := false
    initDone := false
    errSticky := false
    errCode := 0
    result := 0
    lines := Lines.reset s.cfg
    execState := .idle }
  (t.receive s.lines).1

/-- Place a frame so that the next cycle completes it on the wire: every bit but the last is in the receiver's buffer,
the last stands on `SDIO0`, and the block is about to raise `SCLK` (log 10). -/
def State.placeFrame (s : State) (bytes : List Byte) : State :=
  let bits := bytes.flatMap byteBits
  { s with
    rstN := true
    host := .idle :: s.host
    busy := true
    execState := .running .writeReg ([.set .sclk true, .wait s.cfg.tSclkHigh] ++ frameTail s.cfg) 0
    lines := { s.lines with csN := false, sclk := false, sdio0 := bits.getLastD false }
    chip := { s.chip with inFrame := true, buf := bits.dropLast } }

end Sys2Proof.Machine
end

