-- ==== Sys2Proof/Machine/HostBus.lean ====
section
/-! DEFINITION. The host's part of one clock cycle: register reads and writes (20_memory R51-R53), `RST_N` (R240), and the
pseudo-instructions of a command program (30_encoding R91). A write to `CMD` yields the command to execute. -/

namespace Sys2Proof.Machine

/-- The offset of `CMD` (R52). -/
def cmdOffset : Nat := 0x00

/-- The offset of `STATUS` (R52). -/
def statusOffset : Nat := 0x1C

/-- The offset of `ARGi` (R52). -/
def argOffset (i : Nat) : Nat := 0x04 + 4 * i

/-- The bus address of an offset (R51). -/
def busAddress (c : Cfg) (offset : Nat) : Nat := c.hostBase + offset

/-- The register at an offset (R52): `CMD` and the reserved offsets read 0. -/
def State.readReg (s : State) (offset : Nat) : Word :=
  match offset with
  | 0x04 => s.args.a0
  | 0x08 => s.args.a1
  | 0x0C => s.args.a2
  | 0x10 => s.args.a3
  | 0x14 => s.args.a4
  | 0x18 => s.args.a5
  | 0x1C => statusWord s
  | 0x20 => s.result
  | _ => 0

/-- A write to an offset other than `CMD` (R23, R24, R25, R52): the `ARG` registers take it, every other ignores it. -/
def State.writeReg (s : State) (offset : Nat) (v : Word) : State :=
  match offset with
  | 0x04 => { s with args := { s.args with a0 := v } }
  | 0x08 => { s with args := { s.args with a1 := v } }
  | 0x0C => { s with args := { s.args with a2 := v } }
  | 0x10 => { s with args := { s.args with a3 := v } }
  | 0x14 => { s with args := { s.args with a4 := v } }
  | 0x18 => { s with args := { s.args with a5 := v } }
  | _ => s

/-- The one access form the block supports is an aligned 32-bit access inside the window (R51, R53); any other goes no
further (log 4, log 5). -/
def onAccess {α : Type} (offset width : Nat) (k : Host.Outcome α Fault Refusal) : Host.Outcome α Fault Refusal :=
  if 64 ≤ offset then .fault .hostOutsideWindow
  else if width = 4 ∧ offset % 4 = 0 then k
  else .refused .hostPartialAccess

/-- The operation the host makes in this cycle; past the end of its program it makes none. -/
def State.hostOp (s : State) : HostOp := s.host.headD .idle

/-- `RST_N` is 0 in this cycle, or is released in it (R240). -/
def State.inResetCycle (s : State) : Bool := s.hostOp == .blockReset || !s.rstN

/-- A new cycle begins: the clock advances, the host's operation is taken from its program, and a chip held in reset holds
unknown values (R71; log 11). -/
def State.beginCycle (s : State) : State :=
  let t : State := { s with cycle := s.cycle + 1, host := s.host.tail, readData := none }
  if t.chipInReset then t.chipReset else t

/-- A cycle in which block reset is asserted or released (R216, R240): reset wins, an access has no effect. `WAIT_IDLE`
and `EXPECT_OK` got no data and poll again (log 18). -/
def State.resetCycle (s : State) : State :=
  let keep : List HostOp := match s.hostOp with
    | .waitIdle => [.waitIdle]
    | .expectOk => [.expectOk]
    | _ => []
  { s.beginCycle.blockReset with
    rstN := s.hostOp != .blockReset
    host := keep ++ s.host.tail }

/-- The host's part of a cycle. Reads and checks see the state before the block's own progress in the cycle (R216). -/
def State.hostPhase (s : State) : Host.Outcome (State × Option Instr) Fault Refusal :=
  if s.inResetCycle then .next (s.resetCycle, none)
  else
    let t := s.beginCycle
    match s.hostOp with
    | .idle => .next (t, none)
    | .blockReset => .next (s.resetCycle, none)
    | .read offset width =>
      onAccess offset width (.next ({ t with readData := some (s.readReg offset) }, none))
    | .write offset width v =>
      onAccess offset width <|
        if offset = cmdOffset then
          match decodeCommand v with
          | .ok i => .next (t, some i)
          | .error _ => .next (t.rejectReserved, none)
        else .next (t.writeReg offset v, none)
    | .waitIdle =>
      let status := s.readReg statusOffset
      .next ({ t with
        readData := some status
        host := if status.getLsbD 0 then .waitIdle :: t.host else t.host }, none)
    | .expectOk =>
      let status := s.readReg statusOffset
      .next ({ t with
        readData := some status
        host := if status.extractLsb' 4 4 = errNone then t.host else [] }, none)

end Sys2Proof.Machine
end

