-- ==== Sys2Proof/Machine/Step.lean ====
section
/-! DEFINITION. One step: one block clock cycle (70_reset_and_hazards R250; log 7). First the host's part, judged on the
state before the cycle (60_exceptions R216), then, if a command was already running, the block's part (log 8). -/

namespace Sys2Proof.Machine

/-- Execute the instruction a phase yielded, if it did. -/
def runFetched (i : Option Instr) (s : State) : Host.Outcome State Fault Refusal :=
  match i with
  | none => .next s
  | some i => exec i s

/-- The block's part of a cycle, with the frame that its event completed on the wire. -/
def stepBlock (s : State) : Host.Outcome State Fault Refusal :=
  runFetched s.blockPhase.2 s.blockPhase.1

/-- One block clock cycle. -/
def step (s : State) : Host.Outcome State Fault Refusal :=
  match s.hostPhase with
  | .fault f => .fault f
  | .refused r => .refused r
  | .next (t, i) =>
    match runFetched i t with
    | .fault f => .fault f
    | .refused r => .refused r
    | .next u => if s.execState.isRunning then stepBlock u else .next u

/-- `s` with the instruction that the table's bits `w` stand for placed where the next step takes its instruction: a
command as the host's next write to `CMD`, a frame as the wire's next complete write (log 6, log 10). -/
def State.withFetchWord (s : State) (nbits w : Nat) : State :=
  match tableCode nbits w with
  | .command v => { s with rstN := true, host := .write cmdOffset 4 v :: s.host }
  | .frame bytes => s.placeFrame bytes

end Sys2Proof.Machine
end

