-- ==== Sys2Proof/Machine/Program.lean ====
section
/-! DEFINITION. Command programs (30_encoding R90) and their expansion to host operations (R91). -/

namespace Sys2Proof.Machine

/-- A line of a command program: a command with its operands in R83's order, or a pseudo-instruction (R90, R91). -/
inductive ProgramLine where
  | init
  | selectChannel (ch : Byte)
  | latchUpdate
  | writeReg (addr len payload : Word)
  | cfgFixedTone (ch : Byte) (freq phase amp : Word)
  | cfgFreqSweep (ch : Byte) (freqStart freqEnd rampUp rampDown phase amp : Word)
  | cfgPhaseSweep (ch : Byte) (freq phaseStart phaseEnd rampUp rampDown amp : Word)
  | cfgAmpSweep (ch : Byte) (freq phase ampStart ampEnd rampUp rampDown : Word)
  | encFreq (freq : Word)
  | encPhase (phase : Word)
  | encAmp (amp base : Word)
  | encAmpSweep (amp : Word)
  | encPhaseSweep (phase : Word)
  | waitIdle
  | expectOk
  deriving DecidableEq, Repr

/-- The operand writes, `o_i` into `ARGi` in order (R91). -/
def argWrites (operands : List Word) : List HostOp :=
  operands.zipIdx.map fun (v, i) => .write (argOffset i) 4 v

/-- The host operations of a command: operands, then `CMD`, then `WAIT_IDLE` (R91). -/
def commandOps (op : Opcode) (ch : Byte) (operands : List Word) : List HostOp :=
  argWrites operands ++ [.write cmdOffset 4 (commandWord op ch), .waitIdle]

/-- The host operations of a line (R91). `addr | (len << 8)` of `WRITE_REG` is computed in the 32 bits of `ARG0`: of a `len`
of 2^24 or more, which R90 admits, the upper bits are dropped. The spec does not say what is written then: DESIGN CHOICE,
unsafe (log 29). -/
def ProgramLine.expand : ProgramLine → List HostOp
  | .init => commandOps .init 0 []
  | .selectChannel ch => commandOps .selectChannel ch []
  | .latchUpdate => commandOps .latchUpdate 0 []
  | .writeReg addr len payload => commandOps .writeReg 0 [addr ||| (len <<< 8), payload]
  | .cfgFixedTone ch freq phase amp => commandOps .cfgFixedTone ch [freq, phase, amp]
  | .cfgFreqSweep ch fs fe ru rd phase amp => commandOps .cfgFreqSweep ch [fs, fe, ru, rd, phase, amp]
  | .cfgPhaseSweep ch freq ps pe ru rd amp => commandOps .cfgPhaseSweep ch [freq, ps, pe, ru, rd, amp]
  | .cfgAmpSweep ch freq phase ampS ampE ru rd => commandOps .cfgAmpSweep ch [freq, phase, ampS, ampE, ru, rd]
  | .encFreq freq => commandOps .encFreq 0 [freq]
  | .encPhase phase => commandOps .encPhase 0 [phase]
  | .encAmp amp base => commandOps .encAmp 0 [amp, base]
  | .encAmpSweep amp => commandOps .encAmpSweep 0 [amp]
  | .encPhaseSweep phase => commandOps .encPhaseSweep 0 [phase]
  | .waitIdle => [.waitIdle]
  | .expectOk => [.expectOk]

/-- The host operations of a program (R90, R91). -/
def expandProgram (lines : List ProgramLine) : List HostOp := lines.flatMap ProgramLine.expand

end Sys2Proof.Machine
end

