-- ==== Sys2Proof/Safety.lean ====
section
/-! DEFINITION. The terms claims are stated in: what an event list does to the lines and what a reader of the wire sees in
it, the least time it takes, runs of steps, the end of a run and a clean run (70_reset_and_hazards R260, 60_exceptions
R219), and the invariant of the machine. -/

namespace Sys2Proof.Machine

/-! ### Event lists and the wire -/

/-- The `Set`s of an event list, in order. -/
def setsOf : List Event → List (Line × Bool)
  | [] => []
  | .set l v :: rest => (l, v) :: setsOf rest
  | .wait _ :: rest => setsOf rest

/-- The `Set`s of a trace, in order. -/
def traceSets (trace : List TraceEvent) : List (Line × Bool) := trace.map fun e => (e.line, e.level)

/-- The levels of the lines after a list of `Set`s (R26). -/
def applySets (ls : Lines) (sets : List (Line × Bool)) : Lines := sets.foldl (fun ls e => ls.set e.1 e.2) ls

/-- The bit strings a reader of the wire takes down: one for each time `CS_N` falls and rises again, a bit from `SDIO0` at
each rising edge of `SCLK` while `CS_N = 0` (R86, R142). `csN`, `sclk`, `data` are the levels so far, `bits` the frame so
far. A frame not yet ended is not reported. -/
def readWire (csN sclk data : Bool) (bits : List Bool) : List (Line × Bool) → List (List Bool)
  | [] => []
  | (.csN, v) :: rest =>
    if csN && !v then readWire v sclk data [] rest
    else if !csN && v then bits :: readWire v sclk data [] rest
    else readWire v sclk data bits rest
  | (.sclk, v) :: rest => readWire csN v data (if !sclk && v && !csN then bits ++ [data] else bits) rest
  | (.sdio0, v) :: rest => readWire csN sclk v bits rest
  | (_, _) :: rest => readWire csN sclk data bits rest

/-- The bit strings of the frames in an event list that starts with `CS_N = 1`, from any level of `SCLK` and `SDIO0`. -/
def framesSent (sclk data : Bool) (events : List Event) : List (List Bool) :=
  readWire true sclk data [] (setsOf events)

/-- The bit string of a frame's bytes (R86). -/
def frameBits (bytes : List Byte) : List Bool := bytes.flatMap byteBits

/-- The levels an event list drives onto one line, in order. -/
def levelsOf (l : Line) (events : List Event) : List Bool :=
  ((setsOf events).filter fun e => e.1 == l).map (·.2)

/-- The least number of cycles from the first `Set` of a list to its completion (R250). -/
def minCycles : List Event → Nat
  | [] => 0
  | .wait _ :: rest => minCycles rest
  | .set _ _ :: rest => minGap rest + minCycles rest

/-- The events a running command has still to emit (R27). -/
def Exec.events : Exec → List Event
  | .idle => []
  | .running _ events _ => events

/-- The cycles still to pass before the next event or the completion. -/
def Exec.timer : Exec → Nat
  | .idle => 0
  | .running _ _ k => k

/-! ### Commands and frames -/

end Machine

/-- The instruction is a command, not a frame. -/
def Instr.isCommand : Instr → Bool
  | .init | .selectChannel _ | .latchUpdate | .writeReg => true
  | .cfgFixedTone _ | .cfgFreqSweep _ | .cfgPhaseSweep _ | .cfgAmpSweep _ => true
  | .encFreq | .encPhase | .encAmp | .encAmpSweep | .encPhaseSweep => true
  | .frCsr _ | .frFr1 _ | .frFr2 _ | .frCfr _ | .frCftw _ | .frCpow _ => false
  | .frAcr _ | .frLsrr _ | .frRdw _ | .frFdw _ | .frCw1 _ => false

/-- The command is one of the five `ENC_*` (R25). -/
def Instr.isEncode : Instr → Bool
  | .encFreq | .encPhase | .encAmp | .encAmpSweep | .encPhaseSweep => true
  | .init | .selectChannel _ | .latchUpdate | .writeReg => false
  | .cfgFixedTone _ | .cfgFreqSweep _ | .cfgPhaseSweep _ | .cfgAmpSweep _ => false
  | .frCsr _ | .frFr1 _ | .frFr2 _ | .frCfr _ | .frCftw _ | .frCpow _ => false
  | .frAcr _ | .frLsrr _ | .frRdw _ | .frFdw _ | .frCw1 _ => false

namespace Machine

/-! ### Runs -/

/-- `n` steps, stopping at the first fault or refusal. -/
def runFor : Nat → State → Host.Outcome State Fault Refusal
  | 0, s => .next s
  | n + 1, s =>
    match step s with
    | .next t => runFor n t
    | .fault f => .fault f
    | .refused r => .refused r

/-- The host neither writes nor resets in this cycle: an idle cycle, an aligned read inside the window, or a poll (R53,
R91). -/
def HostOp.quiet : HostOp → Bool
  | .idle | .waitIdle | .expectOk => true
  | .read offset width => decide (offset < 0x40) && decide (offset % 4 = 0) && width == 4
  | .write _ _ _ | .blockReset => false

/-- The run has ended (R260): the host's program is played and `BUSY` reads 0. -/
def State.runEnded (s : State) : Bool := s.host.isEmpty && !s.busy

/-- No command has been rejected since block reset (R219). -/
def State.clean (s : State) : Bool := !s.errSticky

/-! ### The invariant -/

/-- What the running command `op` may drive: never `PWR_DWN_N` to 0 nor `SDIO1`-`SDIO3` to 1 (R149, R168); `DDS_RESET` only
`INIT`, which in turn begins no frame and no update pulse (R26, R165). -/
def Event.allowed (op : Opcode) : Event → Bool
  | .wait _ => true
  | .set .pwrDwnN v => v
  | .set .sdio1 v => !v
  | .set .sdio2 v => !v
  | .set .sdio3 v => !v
  | .set .ddsReset _ => op == .init
  | .set .csN v => op != .init || v
  | .set .ioUpdate v => op != .init || !v
  | .set .sclk _ => true
  | .set .sdio0 _ => true

/-- The lines rest: `CS_N`, `IO_UPDATE` and `DDS_RESET` at their idle levels (R26). -/
def Lines.atRest (c : Cfg) (ls : Lines) : Bool :=
  ls.csN && !ls.ioUpdate && (ls.ddsReset != c.resetActiveLevel)

/-- What `EXEC` promises of the lines and of `INIT_DONE` (R29, R71, R165-R167). -/
def Exec.sound (s : State) : Exec → Prop
  | .idle => s.lines.atRest s.cfg = true
  | .running op events _ =>
    (op = .init ↔ s.initDone = false)
      ∧ (∀ e ∈ events, e.allowed op = true)
      ∧ (applySets s.lines (setsOf events)).atRest s.cfg = true
      ∧ (op = .init → s.lines.csN = true ∧ s.lines.ioUpdate = false)
      ∧ (op ≠ .init → s.lines.ddsReset ≠ s.cfg.resetActiveLevel)

/-- The invariant: `BUSY` is 1 exactly when `EXEC ≠ Idle` (R27); `ERR_CODE` is a code of R210, and not 0 only with the
sticky bit set (R212); the unused lines rest (R149, R168, R227); and `EXEC` keeps its promises. -/
structure State.Inv (s : State) : Prop where
  busy_iff : s.busy = s.execState.isRunning
  code_le : s.errCode.toNat ≤ 8
  code_sticky : s.errCode ≠ 0 → s.errSticky = true
  unused_rest : s.lines.pwrDwnN = true ∧ s.lines.sdio1 = false ∧ s.lines.sdio2 = false ∧ s.lines.sdio3 = false
  exec_sound : s.execState.sound s

end Sys2Proof.Machine
end

