-- ==== Sys2Proof/WellFormed.lean ====
section
/-! DEFINITION. Which instructions are well formed: a frame's payload has exactly the width of its register
(20_memory R57). Every command is well formed: a `CH` of 4 to 255 is no reserved encoding, it decodes and is then
rejected by the channel check (30_encoding R88). -/

namespace Sys2Proof

/-- The check that an instruction stands for bits the encoding admits. -/
def Instr.wellFormed : Instr → Bool
  | .init | .latchUpdate | .writeReg => true
  | .selectChannel _ | .cfgFixedTone _ | .cfgFreqSweep _ | .cfgPhaseSweep _ | .cfgAmpSweep _ => true
  | .encFreq | .encPhase | .encAmp | .encAmpSweep | .encPhaseSweep => true
  | .frCsr p => p.length == ChipReg.csr.width
  | .frFr1 p => p.length == ChipReg.fr1.width
  | .frFr2 p => p.length == ChipReg.fr2.width
  | .frCfr p => p.length == ChipReg.cfr.width
  | .frCftw p => p.length == ChipReg.cftw.width
  | .frCpow p => p.length == ChipReg.cpow.width
  | .frAcr p => p.length == ChipReg.acr.width
  | .frLsrr p => p.length == ChipReg.lsrr.width
  | .frRdw p => p.length == ChipReg.rdw.width
  | .frFdw p => p.length == ChipReg.fdw.width
  | .frCw1 p => p.length == ChipReg.cw1.width

/-- An instruction is well formed. -/
abbrev WellFormed (i : Instr) : Prop := i.wellFormed = true

end Sys2Proof
end

