-- ==== Sys2Proof/Certificates/Slice0/Obligations.lean ====
section
/-! DEFINITION. The statements for the provers. Each docstring names the rules of spec/ it rests on. -/

namespace Sys2Proof.Claims

open Sys2Proof.Machine

/-- `t` is `s` after a command was accepted that issued the list `E` (R211, R214): `EXEC` runs `E` and its first event is
no earlier than the next cycle (R250), `BUSY` and `ERR_CODE` are written, and nothing else changes (`draws` is the model's
own index of free values). -/
def Issued (s t : State) (op : Opcode) (E : List Event) : Prop :=
  (∃ k, t.execState = .running op E k ∧ minGap E ≤ k + 1)
    ∧ { t with execState := s.execState, draws := s.draws } = { s with busy := true, errCode := 0 }

/-- The command is rejected with code `c`, and nothing else changes (R212). -/
def Rejects (i : Instr) (s : State) (c : BitVec 4) : Prop :=
  exec i s = .next { s with errCode := c, errSticky := true }

/-- The list sends exactly these frames, whatever levels `SCLK` and `SDIO0` start from. -/
def Sends (E : List Event) (frames : List (List Byte)) : Prop :=
  ∀ sclk data, framesSent sclk data E = frames.map frameBits

/-- The list ends with the update pulse and has no other event on `IO_UPDATE` (R163, R180). The pulse is the three `Set`s
R163 lists (log 16). -/
def PulsesOnceAtEnd (E : List Event) : Prop :=
  levelsOf .ioUpdate E = [false, true, false]
    ∧ ∃ before, setsOf E = before ++ [(.ioUpdate, false), (.ioUpdate, true), (.ioUpdate, false)]

/-- The command takes a channel (R82). -/
def takesChannel : Instr → Bool
  | .selectChannel _ | .cfgFixedTone _ | .cfgFreqSweep _ | .cfgPhaseSweep _ | .cfgAmpSweep _ => true
  | _ => false

/-- The commands that drive a line, but for `INIT` (R210, `ERR_NOT_INIT`). -/
def lineDriving (ch : Byte) : List Instr :=
  [.selectChannel ch, .latchUpdate, .writeReg, .cfgFixedTone ch, .cfgFreqSweep ch, .cfgPhaseSweep ch, .cfgAmpSweep ch]

/-- The chip is out of reset and its wire has a reading: the premises of the receiver's rules (R69-R71, R257). -/
def ChipReadable (s : State) : Prop :=
  s.lines.ddsReset ≠ s.cfg.resetActiveLevel ∧ s.chipLost = false

/-- The frame `i` with payload `p` stages `p` in register `r` as R69 says, and changes nothing else. -/
def Stages (i : Instr) (r : ChipReg) (p : List Byte) : Prop :=
  ∀ s, ChipReadable s → p.length = r.width → ∃ t, exec i s = .next t
    ∧ (r ∈ s.cfg.channelScoped →
        (∀ c : Fin 4, ∀ r', readBank t.chip.staged[c] r' =
          if r' = r ∧ s.chip.csr.getLsbD (4 + c.val) = true then p else readBank s.chip.staged[c] r')
        ∧ t.chip.stagedG = s.chip.stagedG)
    ∧ (r ∉ s.cfg.channelScoped →
        (∀ r', readBank t.chip.stagedG r' = if r' = r then p else readBank s.chip.stagedG r')
        ∧ t.chip.staged = s.chip.staged)
    ∧ { t with chip := { t.chip with staged := s.chip.staged, stagedG := s.chip.stagedG } } = s

/-- Past its bits, a state knows of the chip what another does. -/
def SameRegisters (a b : Chip) : Prop :=
  a.csr = b.csr ∧ a.staged = b.staged ∧ a.active = b.active ∧ a.stagedG = b.stagedG ∧ a.activeG = b.activeG

end Sys2Proof.Claims

open Sys2Proof Sys2Proof.Machine Sys2Proof.Claims

/-! ### Encoding -/

/-- R82, R88: which `CMD` values are commands, and what offering a reserved one does when no command runs. -/
def Obligations.ReservedWordRejected : Prop :=
  (∀ v : Word, (∃ i, decodeCommand v = .ok i) ↔
    (1 ≤ (v.extractLsb' 0 4).toNat ∧ (v.extractLsb' 0 4).toNat ≤ 13
      ∧ v.extractLsb' 4 4 = 0 ∧ v.extractLsb' 16 16 = 0))
  ∧ ∀ s v rest, s.rstN = true → s.execState = .idle → s.host = .write 0x00 4 v :: rest →
      ((v.extractLsb' 0 4).toNat = 0 ∨ 14 ≤ (v.extractLsb' 0 4).toNat
        ∨ v.extractLsb' 4 4 ≠ 0 ∨ v.extractLsb' 16 16 ≠ 0) →
      step s = .next { s.beginCycle with errCode := 1, errSticky := true }

/-- R81, R86, R87: decoding an encoded well-formed instruction gives it back, at every operand. -/
def Obligations.DecodeOfEncode : Prop :=
  ∀ i, WellFormed i → decode (encode i) = .ok i

/-- R81, R87, R89: what decodes is well formed and encodes back to the same code, up to the `CH` byte of a command that
ignores it. -/
def Obligations.EncodeOfDecode : Prop :=
  (∀ bytes i, decodeFrame bytes = .ok i → WellFormed i ∧ i.isCommand = false ∧ encode i = .frame bytes)
  ∧ ∀ v i, decodeCommand v = .ok i → WellFormed i ∧ i.isCommand = true
      ∧ encode i = .command (if takesChannel i then v else v &&& 0xFFFF00FF)

/-- R82, R83, R86: words of the spec's own encodings and examples. -/
def Obligations.SampleWordsDecode : Prop :=
  decodeCommand 0x00000001 = .ok .init
  ∧ decodeCommand 0x00000402 = .ok (.selectChannel 4)
  ∧ decodeCommand 0x00000106 = .ok (.cfgFreqSweep 1)
  ∧ decodeCommand 0x00000409 = .ok .encFreq
  ∧ decodeFrame [0x04, 0x33, 0x33, 0x33, 0x33] = .ok (.frCftw [0x33, 0x33, 0x33, 0x33])
  ∧ decodeFrame [0x00, 0x10] = .ok (.frCsr [0x10])
  ∧ decodeCommand 0x00010005 = .error .reservedCommand
  ∧ decodeFrame [0x0B, 0x00] = .error .badAddress

/-! ### A step runs the decoded instruction -/

/-- R80, R211: a write to `CMD` whose value decodes runs that command in the same step: alone when none runs, before the
block's own progress when one does (R216; that order in a cycle is the model's reading, log 8). -/
def Obligations.StepRunsCommand : Prop :=
  ∀ s v rest i, s.rstN = true → s.host = .write 0x00 4 v :: rest → decodeCommand v = .ok i →
    (s.execState = .idle → step s = exec i s.beginCycle)
    ∧ (s.execState ≠ .idle → ∃ u, exec i s.beginCycle = .next u ∧ step s = stepBlock u)

/-- R68, R87: the rising edge of `SCLK` that completes a frame's bit string runs that frame (a frame's meaning as the
receiver's write is the model's choice, log 9). The host makes no access in the cycle, with any program left to play. -/
def Obligations.StepRunsFrame : Prop :=
  ∀ s op E rest bytes i, s.rstN = true → s.hostOp = .idle → s.execState = .running op E 0 →
    nextSet E = some (.sclk, true, rest) → ChipReadable s →
    s.lines.csN = false → s.lines.sclk = false →
    s.chip.buf ++ [s.lines.sdio0] = frameBits bytes → decodeFrame bytes = .ok i →
    step s = exec i
      { (s.beginCycle.emit .sclk true).running op rest with chip := { s.chip with buf := frameBits bytes } }

/-! ### The encoder functions -/

/-- R110: the quotient rounded down, when it fits, and its bytes. The corner cases take `F_SYSCLK = 500 000 000`. -/
def Obligations.FrequencyWord : Prop :=
  (∀ F (f : Word), 0 < F →
    ftw F f = f.toNat * 2 ^ 32 / F
    ∧ (ftwValid F f = true ↔ f.toNat * 2 ^ 32 / F < 2 ^ 32)
    ∧ (ftwValid F f = true ↔ f.toNat < F)
    ∧ (ftwValid F f = true →
        ftwBytes F f =
          let w : Word := BitVec.ofNat 32 (f.toNat * 2 ^ 32 / F)
          [w.extractLsb' 24 8, w.extractLsb' 16 8, w.extractLsb' 8 8, w.extractLsb' 0 8]))
  ∧ ftw 500000000 1 = 8
  ∧ ftw 500000000 250000000 = 0x80000000
  ∧ ftw 500000000 499999999 = 0xFFFFFFF7
  ∧ ftwValid 500000000 500000000 = false

/-- R119: the decoded word is never above the operand, and less than one LSB below it. -/
def Obligations.FrequencyRoundTrip : Prop :=
  ∀ F (f : Word), f.toNat < F →
    (0 : Rat) ≤ (f.toNat : Rat) - decodeFrequency F (ftw F f)
    ∧ (f.toNat : Rat) - decodeFrequency F (ftw F f) < (F : Rat) / 2 ^ 32

/-- R111: the phase word is the nearest integer to `p · 2^14 / 360`, never a tie, mod `2^14`; its two bytes have their top
two bits zero. -/
def Obligations.PhaseWordNearest : Prop :=
  ∀ p : Word,
    (∃ q : Nat, pw p = q % 2 ^ 14
      ∧ 2 * (360 * q : Int) - 2 * (p.toNat * 2 ^ 14 : Int) < 360
      ∧ 2 * (p.toNat * 2 ^ 14 : Int) - 2 * (360 * q : Int) < 360)
    ∧ ∃ hi lo, pwBytes p = [hi, lo] ∧ hi.extractLsb' 6 2 = 0 ∧ hi.toNat * 256 + lo.toNat = pw p

/-- R120: phases wrap at 360 degrees. -/
def Obligations.PhaseWraps : Prop :=
  (∀ (p : Word) (k : Nat), p.toNat + 360 * k < 2 ^ 32 → pw (BitVec.ofNat 32 (p.toNat + 360 * k)) = pw p)
  ∧ pw 360 = 0 ∧ pw 0 = 0

/-- R121, R112, R118: the packed amplitude decodes to the masked operand when the baseline leaves bits 1:0 clear. -/
def Obligations.AmplitudeMasking : Prop :=
  (∀ a : Word, decodeAmplitude (acrBytes a 0) = some (a.toNat &&& 0x3FF))
  ∧ ∀ (a : Word) (base : BitVec 16), base.extractLsb' 0 2 = 0 →
      decodeAmplitude (acrBytes a base) = some (aw a)

/-- R114, 90_conflicts C2: the baseline's byte0 and the flag bits of byte1 come through, and operand bits above bit 9 never
matter. -/
def Obligations.AmplitudeKeepsFlags : Prop :=
  ∀ (a : Word) (base : BitVec 16), ∃ b1 b2 : Byte,
    acrBytes a base = [base.extractLsb' 8 8, b1, b2]
    ∧ b1.extractLsb' 2 6 = base.extractLsb' 2 6
    ∧ b1.extractLsb' 0 2 = base.extractLsb' 0 2 ||| a.extractLsb' 8 2
    ∧ b2 = a.extractLsb' 0 8
    ∧ acrBytes (a &&& 0x3FF) base = acrBytes a base

/-- R113, R122: the channel-select byte is one-hot at bit `4 + ch`. -/
def Obligations.ChannelSelectOneHot : Prop :=
  ∀ ch : Byte, ch.toNat ≤ 3 →
    (∀ k, k < 8 → (csrByte ch).getLsbD k = decide (k = 4 + ch.toNat)) ∧ csrByte ch &&& 0x0F = 0

/-- R115, R116: the byte layouts of the two sweep words, and their 32-bit forms. -/
def Obligations.SweepWordLayouts : Prop :=
  (∀ a : Word, asw a < 2 ^ 32 ∧ asw a = aw a * 2 ^ 22
    ∧ aswBytes a = [BitVec.ofNat 8 (aw a >>> 2), BitVec.ofNat 8 ((aw a &&& 0x3) <<< 6), 0, 0])
  ∧ ∀ p : Word, psw p < 2 ^ 32 ∧ psw p = pw p * 2 ^ 18
    ∧ pswBytes p = [BitVec.ofNat 8 (pw p >>> 6), BitVec.ofNat 8 ((pw p &&& 0x3F) <<< 2), 0, 0]

/-! ### The encoder commands -/

/-- R130: `ENC_FREQ` writes `RESULT` and `ERR_CODE` alone, or is rejected and leaves `RESULT`. -/
def Obligations.EncFreqResult : Prop :=
  ∀ s, s.execState = .idle →
    (s.args.a0.toNat < s.cfg.fSysclk →
      exec .encFreq s = .next
        { s with errCode := 0, result := BitVec.ofNat 32 (s.args.a0.toNat * 2 ^ 32 / s.cfg.fSysclk) })
    ∧ (s.cfg.fSysclk ≤ s.args.a0.toNat → Rejects .encFreq s 8)

/-- R131, R134: the phase encoders write `RESULT` and `ERR_CODE` alone, on every operand. -/
def Obligations.EncPhaseResults : Prop :=
  ∀ s, s.execState = .idle →
    (∃ w : BitVec 14, w.toNat = (s.args.a0.toNat * 2 ^ 14 + 180) / 360 % 2 ^ 14
      ∧ exec .encPhase s = .next { s with errCode := 0, result := w.zeroExtend 32 }
      ∧ exec .encPhaseSweep s = .next { s with errCode := 0, result := w.zeroExtend 32 <<< 18 })

/-- R132, R133: the amplitude encoders write `RESULT` and `ERR_CODE` alone, on every operand; `ARG1[31:16]` is ignored. -/
def Obligations.EncAmpResults : Prop :=
  ∀ s, s.execState = .idle →
    exec .encAmp s = .next { s with
      errCode := 0
      result := 0#8 ++ s.args.a1.extractLsb' 8 8
        ++ (s.args.a1.extractLsb' 0 8 ||| (s.args.a0.extractLsb' 8 2).zeroExtend 8)
        ++ s.args.a0.extractLsb' 0 8 }
    ∧ exec .encAmpSweep s = .next { s with errCode := 0, result := s.args.a0.extractLsb' 0 10 ++ 0#22 }

/-! ### The line-driving commands -/

/-- R165: `INIT` is accepted while `INIT_DONE = 0` and issues the idle levels and the reset pulse, the last `Wait` inside
the busy period; it sets no line, and not yet `INIT_DONE`, itself. -/
def Obligations.InitIssues : Prop :=
  ∀ s, s.execState = .idle → s.initDone = false →
    ∃ t, exec .init s = .next t ∧
      let active := s.cfg.resetActiveLevel
      Issued s t .init
        [.set .csN true, .set .sclk false, .set .sdio0 false, .set .sdio1 false, .set .sdio2 false,
         .set .sdio3 false, .set .ioUpdate false, .set .pwrDwnN true, .set .ddsReset (!active),
         .set .ddsReset false, .wait s.cfg.tRst1, .set .ddsReset (!active), .wait s.cfg.tRst2,
         .set .ddsReset active, .wait s.cfg.tRst3, .set .ddsReset (!active), .wait s.cfg.tRst4]

/-- R160, R161: `SELECT_CHANNEL` sends one frame, the one-hot byte to address 0x00, and no update pulse. -/
def Obligations.SelectChannelSends : Prop :=
  ∀ s (ch : Byte), s.execState = .idle → s.initDone = true → ch.toNat ≤ 3 →
    ∃ t E, exec (.selectChannel ch) s = .next t ∧ Issued s t .selectChannel E
      ∧ Sends E [[0x00, 0x10 <<< ch.toNat]] ∧ levelsOf .ioUpdate E = []

/-- R163, R164: `LATCH_UPDATE` issues one update pulse. That it holds three `Set`s is read from R163's list, against R164's
example, which says five: the model's reading, log 16 (DEDUCED, unsafe). -/
def Obligations.LatchUpdatePulses : Prop :=
  ∀ s, s.execState = .idle → s.initDone = true →
    ∃ t, exec .latchUpdate s = .next t ∧
      Issued s t .latchUpdate
        [.set .ioUpdate false, .wait s.cfg.tUpdPre, .set .ioUpdate true, .wait s.cfg.tUpdHigh, .set .ioUpdate false]

/-- R146: `WRITE_REG` sends one frame, any payload of the register's width taken right-aligned from `ARG1`, and no update
pulse. -/
def Obligations.WriteRegSends : Prop :=
  ∀ s (r : ChipReg), s.execState = .idle → s.initDone = true →
    s.args.a0.extractLsb' 0 8 = r.addr → (s.args.a0.extractLsb' 8 8).toNat = r.width →
    ∃ t E, exec .writeReg s = .next t ∧ Issued s t .writeReg E
      ∧ Sends E [r.addr :: (List.range r.width).map fun k =>
          s.args.a1.extractLsb' (8 * (r.width - 1 - k)) 8]
      ∧ levelsOf .ioUpdate E = []

/-- R180, R182: `CFG_FIXED_TONE` sends its six frames in order, then one update pulse. -/
def Obligations.FixedToneSends : Prop :=
  ∀ s (ch : Byte), s.execState = .idle → s.initDone = true → ch.toNat ≤ 3 →
    s.args.a0.toNat < s.cfg.fSysclk →
    ∃ t E, exec (.cfgFixedTone ch) s = .next t ∧ Issued s t .cfgFixedTone E ∧ PulsesOnceAtEnd E
      ∧ Sends E
        [[0x00, 0x10 <<< ch.toNat],
         0x01 :: be3 s.cfg.fr1Value,
         0x03 :: be3 s.cfg.cfrFixed,
         0x06 :: acrBytes s.args.a2 s.cfg.acrBaseFixed,
         0x05 :: pwBytes s.args.a1,
         0x04 :: ftwBytes s.cfg.fSysclk s.args.a0]

/-- R180, R183: `CFG_FREQ_SWEEP` sends its ten frames in order, then one update pulse. -/
def Obligations.FreqSweepSends : Prop :=
  ∀ s (ch : Byte), s.execState = .idle → s.initDone = true → ch.toNat ≤ 3 →
    s.args.a0.toNat < s.cfg.fSysclk → s.args.a1.toNat < s.cfg.fSysclk →
    s.args.a2.toNat < s.cfg.fSysclk → s.args.a3.toNat < s.cfg.fSysclk →
    ∃ t E, exec (.cfgFreqSweep ch) s = .next t ∧ Issued s t .cfgFreqSweep E ∧ PulsesOnceAtEnd E
      ∧ Sends E
        [[0x00, 0x10 <<< ch.toNat],
         0x01 :: be3 s.cfg.fr1Value,
         0x03 :: be3 s.cfg.cfrFsweep,
         0x04 :: ftwBytes s.cfg.fSysclk s.args.a0,
         0x0A :: ftwBytes s.cfg.fSysclk s.args.a1,
         0x08 :: ftwBytes s.cfg.fSysclk s.args.a2,
         0x09 :: ftwBytes s.cfg.fSysclk s.args.a3,
         0x07 :: be2 s.cfg.srrFsweep,
         0x06 :: acrBytes s.args.a5 s.cfg.acrBaseFsweep,
         0x05 :: pwBytes s.args.a4]

/-- R180, R184, R189, R190: `CFG_PHASE_SWEEP` sends its ten frames in order, then one update pulse; the shadow slot gets the
end value under `INTENDED` and some 4 bytes under `UNCONSTRAINED`. -/
def Obligations.PhaseSweepSends : Prop :=
  ∀ s (ch : Byte), s.execState = .idle → s.initDone = true → ch.toNat ≤ 3 →
    s.args.a0.toNat < s.cfg.fSysclk →
    ∃ t E shadow, exec (.cfgPhaseSweep ch) s = .next t ∧ Issued s t .cfgPhaseSweep E ∧ PulsesOnceAtEnd E
      ∧ shadow.length = 4 ∧ (s.cfg.shadowEndPolicy = .intended → shadow = pswBytes s.args.a2)
      ∧ Sends E
        [[0x00, 0x10 <<< ch.toNat],
         0x01 :: be3 s.cfg.fr1Value,
         0x03 :: be3 s.cfg.cfrPsweep,
         0x04 :: ftwBytes s.cfg.fSysclk s.args.a0,
         0x05 :: pwBytes s.args.a1,
         0x0A :: shadow,
         0x08 :: pswBytes s.args.a3,
         0x09 :: pswBytes s.args.a4,
         0x07 :: be2 s.cfg.srrPsweep,
         0x06 :: acrBytes s.args.a5 s.cfg.acrBasePsweep]

/-- R180, R185, R189, R190: `CFG_AMP_SWEEP` sends its ten frames in order, then one update pulse; the shadow slot as in the
phase sweep. -/
def Obligations.AmpSweepSends : Prop :=
  ∀ s (ch : Byte), s.execState = .idle → s.initDone = true → ch.toNat ≤ 3 →
    s.args.a0.toNat < s.cfg.fSysclk →
    ∃ t E shadow, exec (.cfgAmpSweep ch) s = .next t ∧ Issued s t .cfgAmpSweep E ∧ PulsesOnceAtEnd E
      ∧ shadow.length = 4 ∧ (s.cfg.shadowEndPolicy = .intended → shadow = aswBytes s.args.a3)
      ∧ Sends E
        [[0x00, 0x10 <<< ch.toNat],
         0x01 :: be3 s.cfg.fr1Value,
         0x03 :: be3 s.cfg.cfrAsweep,
         0x06 :: acrBytes s.args.a2 s.cfg.acrBaseAsweep,
         0x0A :: shadow,
         0x08 :: aswBytes s.args.a4,
         0x09 :: aswBytes s.args.a5,
         0x07 :: be2 s.cfg.srrAsweep,
         0x05 :: pwBytes s.args.a1,
         0x04 :: ftwBytes s.cfg.fSysclk s.args.a0]

/-- R34: the list a command emits depends on its opcode, channel, operands and `CFG` alone: every command's under
`INTENDED`, and under either policy that of every command without a shadow slot. -/
def Obligations.NoHiddenState : Prop :=
  ∀ i s s' t t', i.isCommand = true → s.cfg = s'.cfg → s.args = s'.args →
    (s.cfg.shadowEndPolicy = .intended ∨ ∀ ch, i ≠ .cfgPhaseSweep ch ∧ i ≠ .cfgAmpSweep ch) →
    s.execState = .idle → s'.execState = .idle →
    exec i s = .next t → exec i s' = .next t' →
    t.execState.isRunning = true → t'.execState.isRunning = true →
    t.execState.events = t'.execState.events

/-! ### Acceptance and rejection -/

/-- R215: the checks of each command and their order, when no command runs: each check fails with its own code once those
before it hold. -/
def Obligations.CheckOrder : Prop :=
  ∀ s (ch : Byte), s.execState = .idle →
    (s.initDone = true → Rejects .init s 4)
    ∧ (s.initDone = false → ∀ i ∈ lineDriving ch, Rejects i s 3)
    ∧ (s.initDone = true → 4 ≤ ch.toNat →
        ∀ i ∈ [.selectChannel ch, .cfgFixedTone ch, .cfgFreqSweep ch, .cfgPhaseSweep ch, .cfgAmpSweep ch],
          Rejects i s 5)
    ∧ (s.initDone = true → 0x0A < (s.args.a0.extractLsb' 0 8).toNat → Rejects .writeReg s 6)
    ∧ (∀ r : ChipReg, s.initDone = true → s.args.a0.extractLsb' 0 8 = r.addr →
        (s.args.a0.extractLsb' 8 8).toNat ≠ r.width → Rejects .writeReg s 7)
    ∧ (s.initDone = true → ch.toNat ≤ 3 → s.cfg.fSysclk ≤ s.args.a0.toNat →
        ∀ i ∈ [.cfgFixedTone ch, .cfgPhaseSweep ch, .cfgAmpSweep ch], Rejects i s 8)
    ∧ (s.initDone = true → ch.toNat ≤ 3 →
        (∃ f ∈ [s.args.a0, s.args.a1, s.args.a2, s.args.a3], s.cfg.fSysclk ≤ f.toNat) →
        Rejects (.cfgFreqSweep ch) s 8)

/-- R212: a rejected command changes `ERR_CODE` and `ERR_STICKY`, and nothing else. -/
def Obligations.RejectionFrame : Prop :=
  ∀ i s t, i.isCommand = true → exec i s = .next t → t.errCode ≠ 0 →
    t = { s with errCode := t.errCode, errSticky := true }

/-- R211, R253: any `CMD` write while a command runs, reserved or not, and in the completion step too (R216), is rejected
with `ERR_BUSY`; the step is otherwise that of a cycle without an access. -/
def Obligations.BusyOfferLost : Prop :=
  ∀ s v rest, s.rstN = true → s.execState ≠ .idle → s.host = .write 0x00 4 v :: rest →
    ∃ u, step { s with host := .idle :: rest } = .next u
      ∧ step s = .next { u with errCode := 2, errSticky := true }

/-- R212, R218: no step but one of block reset clears `ERR_STICKY`. -/
def Obligations.StickyUntilReset : Prop :=
  ∀ s t, step s = .next t → s.errSticky = true → s.inResetCycle = false → t.errSticky = true

/-- R24, R29, R166: `INIT_DONE` changes only when `INIT` completes, to 1, or at block reset, to 0. -/
def Obligations.InitDoneChanges : Prop :=
  ∀ s t, step s = .next t → t.initDone ≠ s.initDone →
    (s.inResetCycle = true ∧ t.initDone = false)
    ∨ (∃ E, s.execState = .running .init E 0 ∧ setsOf E = [] ∧ t.initDone = true ∧ t.execState = .idle)

/-- R25: only an `ENC_*` command, or block reset, changes `RESULT`. -/
def Obligations.OnlyEncodersWriteResult : Prop :=
  ∀ s t, step s = .next t → t.result ≠ s.result →
    (s.inResetCycle = true ∧ t.result = 0)
    ∨ (∃ v i, s.hostOp = .write 0x00 4 v ∧ decodeCommand v = .ok i ∧ i.isEncode = true
        ∧ s.execState = .idle ∧ t.errCode = 0)

/-- R21: "No command writes an `ARG` register", nor does a frame. -/
def Obligations.NoInstructionWritesArgs : Prop :=
  ∀ i s t, exec i s = .next t → t.args = s.args

/-! ### The host window -/

/-- R52, R24: what the registers of the window read. -/
def Obligations.WindowReads : Prop :=
  ∀ s : State,
    s.readReg 0x00 = 0
    ∧ s.readReg 0x04 = s.args.a0 ∧ s.readReg 0x08 = s.args.a1 ∧ s.readReg 0x0C = s.args.a2
    ∧ s.readReg 0x10 = s.args.a3 ∧ s.readReg 0x14 = s.args.a4 ∧ s.readReg 0x18 = s.args.a5
    ∧ (∀ k, (s.readReg 0x1C).getLsbD k =
        if k = 0 then s.busy else if k = 1 then s.initDone else if k = 2 then s.errSticky
        else if 4 ≤ k ∧ k < 8 then s.errCode.getLsbD (k - 4) else false)
    ∧ s.readReg 0x20 = s.result
    ∧ ∀ off, 0x24 ≤ off → off < 0x40 → s.readReg off = 0

/-- R53: an aligned 32-bit read returns the register as it was before the cycle, and is otherwise a cycle without an
access. That a read sees the state before the cycle is the model's reading, log 8. -/
def Obligations.ReadHasNoEffect : Prop :=
  ∀ s off rest, s.rstN = true → off < 0x40 → off % 4 = 0 → s.host = .read off 4 :: rest →
    ∃ u, step { s with host := .idle :: rest } = .next u
      ∧ step s = .next { u with readData := some (s.readReg off) }

/-- R23, R213: a write to an `ARG` register is taken whether or not a command runs, reads back, and is otherwise a cycle
without an access: a running command goes on as it would. -/
def Obligations.ArgWriteTaken : Prop :=
  ∀ s (i : Fin 6) v rest, s.rstN = true → s.host = .write (0x04 + 4 * i.val) 4 v :: rest →
    ∃ u args, step { s with host := .idle :: rest } = .next u
      ∧ step s = .next { u with args := args }
      ∧ ∀ off, ({ u with args := args } : State).readReg off =
          if off = 0x04 + 4 * i.val then v else u.readReg off

/-- R24, R25, R52: writes to `STATUS`, `RESULT` and the reserved offsets are ignored. -/
def Obligations.OtherWritesIgnored : Prop :=
  ∀ s off v rest, s.rstN = true → 0x1C ≤ off → off < 0x40 → off % 4 = 0 → s.host = .write off 4 v :: rest →
    ∃ u, step { s with host := .idle :: rest } = .next u ∧ step s = .next u

/-- R53: an access inside the window that is not one aligned 32-bit access is refused. The model's own choice beyond the
window, log 4: an access there faults. -/
def Obligations.OtherAccessesStop : Prop :=
  ∀ s off width rest, s.rstN = true →
    (off < 0x40 → (width ≠ 4 ∨ off % 4 ≠ 0) →
      (s.host = .read off width :: rest → step s = .refused .hostPartialAccess)
      ∧ ∀ v, s.host = .write off width v :: rest → step s = .refused .hostPartialAccess)
    ∧ (0x40 ≤ off →
      (s.host = .read off width :: rest → step s = .fault .hostOutsideWindow)
      ∧ ∀ v, s.host = .write off width v :: rest → step s = .fault .hostOutsideWindow)

/-- R91: one poll of `WAIT_IDLE` goes on exactly when it read `BUSY = 0`; `EXPECT_OK` ends the program on a non-zero
`ERR_CODE` (in the model's form, log 19). Each is otherwise a cycle without an access. Both read `STATUS` as it was before
the cycle's own progress, so a poll in a completion cycle reads `BUSY = 1`: the model's reading, log 8 (DEDUCED, unsafe),
which R91 does not say. -/
def Obligations.PseudoInstructions : Prop :=
  ∀ s rest, s.rstN = true →
    ∃ u, step { s with host := .idle :: rest } = .next u
      ∧ (s.host = .waitIdle :: rest →
          step s = .next { u with
            readData := some (statusWord s)
            host := if s.busy then .waitIdle :: rest else rest })
      ∧ (s.host = .expectOk :: rest →
          step s = .next { u with
            readData := some (statusWord s)
            host := if s.errCode = 0 then rest else [] })

/-- R90, R91, R131: the program line `ENC_PHASE p` runs to its end in three cycles and leaves the phase word in `RESULT`.
One host operation a cycle is the model's pace, log 6. -/
def Obligations.EncPhaseLineRuns : Prop :=
  ∀ s (p : Word) rest, s.rstN = true → s.execState = .idle → s.busy = false →
    s.host = (ProgramLine.encPhase p).expand ++ rest →
    ∃ t, runFor 3 s = .next t ∧ t.host = rest ∧ t.args = { s.args with a0 := p }
      ∧ t.result = BitVec.ofNat 32 ((p.toNat * 2 ^ 14 + 180) / 360 % 2 ^ 14)
      ∧ t.errCode = 0 ∧ t.errSticky = s.errSticky ∧ t.execState = .idle ∧ t.trace = s.trace

/-! ### Reset -/

/-- R33, R216, R240: a cycle with `RST_N` at 0, or in which it is released, leaves the reset values whatever ran and
whatever access the host made, and no event; where no frame was open, the chip keeps what it held. -/
def Obligations.BlockResetValues : Prop :=
  ∀ s, (s.hostOp = .blockReset ∨ s.rstN = false) →
    ∃ t, step s = .next t
      ∧ t.args = ⟨0, 0, 0, 0, 0, 0⟩ ∧ statusWord t = 0 ∧ t.result = 0
      ∧ t.lines.csN = true ∧ t.lines.sclk = false ∧ t.lines.sdio0 = false ∧ t.lines.sdio1 = false
      ∧ t.lines.sdio2 = false ∧ t.lines.sdio3 = false ∧ t.lines.ioUpdate = false
      ∧ t.lines.ddsReset = !s.cfg.resetActiveLevel ∧ t.lines.pwrDwnN = true
      ∧ t.execState = .idle ∧ t.trace = s.trace
      ∧ t.rstN = decide (s.hostOp ≠ .blockReset)
      ∧ (s.lines.csN = true → ChipReadable s → t.chip = s.chip)

/-- R33: the state after reset meets the invariant, under every configuration. -/
def Obligations.ResetMeetsInvariant : Prop :=
  ∀ c, (State.resetWith c).Inv

/-! ### Events and time -/

/-- R26, R250: a step emits at most one `Set`, in its own cycle, and a line changes only by it or at block reset. -/
def Obligations.AtMostOneSetPerCycle : Prop :=
  ∀ s t, step s = .next t →
    (t.trace = s.trace ∧ (s.inResetCycle = false → t.lines = s.lines))
    ∨ (s.inResetCycle = false ∧ ∃ l v, t.trace = s.trace ++ [⟨s.cycle + 1, l, v⟩] ∧ t.lines = s.lines.set l v)

/-- R250: while the gap lasts nothing is emitted, and after a `Set` the next one, or the completion, is at least
`max(1, T_1 + … + T_k)` cycles away. For the completion after a `Set` without a trailing `Wait` (`k = 0`, the end of `UPD`)
the spec gives no bound, and one cycle is the model's choice, log 28. -/
def Obligations.GapLowerBound : Prop :=
  ∀ s t op E, s.inResetCycle = false → step s = .next t →
    (∀ k, s.execState = .running op E (k + 1) →
      t.execState = .running op E k ∧ t.trace = s.trace ∧ t.lines = s.lines)
    ∧ (∀ l v rest, s.execState = .running op E 0 → nextSet E = some (l, v, rest) →
      ∃ k, t.execState = .running op rest k ∧ max 1 (leadingWait rest) ≤ k + 1
        ∧ t.trace = s.trace ++ [⟨s.cycle + 1, l, v⟩])

/-- R166, R214: the completion step sets `EXEC` to `Idle` and `BUSY` to 0, for `INIT` also `INIT_DONE` to 1, and writes
nothing else, whatever program the host has left to play. -/
def Obligations.CompletionStep : Prop :=
  ∀ s op E, s.rstN = true → s.hostOp = .idle → s.execState = .running op E 0 → setsOf E = [] →
    step s = .next { s.beginCycle with
      execState := .idle
      busy := false
      initDone := s.initDone || decide (op = .init) }

/-- R143: how many `Set`s a frame holds, on which lines. -/
def Obligations.FrameSetCounts : Prop :=
  ∀ c a p, let n := p.length
    (setsOf (frame c a p)).length = 2 + 24 * (1 + n)
    ∧ (levelsOf .csN (frame c a p)).length = 2
    ∧ (levelsOf .sclk (frame c a p)).length = 16 * (1 + n)
    ∧ (levelsOf .sdio0 (frame c a p)).length = 8 * (1 + n)
    ∧ (levelsOf .sclk (frame c a p)).head? = some false

/-- R86, R142: a reader of the wire takes down the bits of the address and the payload, in one assertion of `CS_N`. -/
def Obligations.FrameOnTheWire : Prop :=
  ∀ c a p, Sends (frame c a p) [a :: p]
    ∧ (frameBits (a :: p)).length = 8 * (1 + p.length)
    ∧ ∀ k, k < 8 * (1 + p.length) →
        (frameBits (a :: p))[k]? = ((a :: p)[k / 8]?).map fun b => b.getLsbD (7 - k % 8)

/-- R144: the lines after a frame. -/
def Obligations.LinesAfterFrame : Prop :=
  ∀ c a p last ls,
    applySets ls (setsOf (frame c a (p ++ [last]))) =
      { ls with csN := true, sclk := true, sdio0 := last.getLsbD 0 }

/-- R186: the frames, data bits and update pulse of the four configuration commands, whatever the shadow slot gets. -/
def Obligations.ConfigFrameCounts : Prop :=
  ∀ c ch a draw sclk data,
    (framesSent sclk data (fixedToneEvents c ch a)).map List.length = [16, 32, 32, 32, 24, 40]
    ∧ (framesSent sclk data (freqSweepEvents c ch a)).map List.length =
        [16, 32, 32, 40, 40, 40, 40, 24, 32, 24]
    ∧ (framesSent sclk data (phaseSweepEvents c ch a draw)).map List.length =
        [16, 32, 32, 40, 24, 40, 40, 40, 24, 32]
    ∧ (framesSent sclk data (ampSweepEvents c ch a draw)).map List.length =
        [16, 32, 32, 32, 40, 40, 40, 24, 24, 40]
    ∧ PulsesOnceAtEnd (fixedToneEvents c ch a) ∧ PulsesOnceAtEnd (freqSweepEvents c ch a)
    ∧ PulsesOnceAtEnd (phaseSweepEvents c ch a draw) ∧ PulsesOnceAtEnd (ampSweepEvents c ch a draw)

/-- R252: the least time of a frame, from its first `Set` to the next event or completion, and of the update pulse from its
first `Set` to its last, and then one cycle more to the completion, which is the model's choice (log 28). -/
def Obligations.LeastFrameTime : Prop :=
  ∀ c a p, let n := p.length; let m := fun T => max 1 T
    minCycles (frame c a p) =
      m c.tCsSetup + 8 * (1 + n) * (1 + m c.tSclkLow) + (8 * (1 + n) - 1) * m c.tSclkHigh
        + m (c.tSclkHigh + c.tCsHold) + m c.tCsIdle
    ∧ minCycles (upd c) = m c.tUpdPre + m c.tUpdHigh + 1

/-! ### The reference receiver -/

/-- R69: a `CSR` frame sets `CSR` at once; one with bits [3:0] not 0 leaves later wire activity without a reading (R257, in
the model's form, log 13). -/
def Obligations.CsrFrameActsAtOnce : Prop :=
  ∀ s (v : Byte), ChipReadable s →
    exec (.frCsr [v]) s = .next { s with chip := { s.chip with csr := v }, chipLost := decide (v &&& 0x0F ≠ 0) }

/-- R69, R59: every other frame stages its payload for the selected channels, or globally, and changes nothing else. -/
def Obligations.FramesStage : Prop :=
  ∀ p, Stages (.frFr1 p) .fr1 p ∧ Stages (.frFr2 p) .fr2 p ∧ Stages (.frCfr p) .cfr p
    ∧ Stages (.frCftw p) .cftw p ∧ Stages (.frCpow p) .cpow p ∧ Stages (.frAcr p) .acr p
    ∧ Stages (.frLsrr p) .lsrr p ∧ Stages (.frRdw p) .rdw p ∧ Stages (.frFdw p) .fdw p ∧ Stages (.frCw1 p) .cw1 p

/-- R70: a rising edge of `IO_UPDATE` makes every staged payload active, in one step. -/
def Obligations.UpdateEdgeCommits : Prop :=
  ∀ s op E rest, s.rstN = true → s.hostOp = .idle → s.execState = .running op E 0 →
    nextSet E = some (.ioUpdate, true, rest) → s.lines.ioUpdate = false → ChipReadable s →
    ∃ t, step s = .next t ∧ t.chip = { s.chip with active := s.chip.staged, activeG := s.chip.stagedG }
      ∧ t.lines = { s.lines with ioUpdate := true }

/-! ### Whole-machine results -/

/-- R6, R228: no step changes `CFG`. -/
def Obligations.ConfigurationFixed : Prop :=
  ∀ s t, step s = .next t → t.cfg = s.cfg

/-- R27, R29, R71, R149, R168, R210, R212: every step keeps the invariant. -/
def Obligations.StepKeepsInvariant : Prop :=
  ∀ s t : State, s.Inv → step s = .next t → t.Inv

/-- R71: while `DDS_RESET` is active no frame is open and no update pulse is up. -/
def Obligations.NoFrameInChipReset : Prop :=
  ∀ s : State, s.Inv → s.lines.ddsReset = s.cfg.resetActiveLevel → s.lines.csN = true ∧ s.lines.ioUpdate = false

/-- R61, R63, R91, R214, R250: a running command completes after finitely many cycles while the host's program holds only
idle cycles, polls and reads; every event of its list, and no other, has then been emitted, in order, and `INIT_DONE` is set
if it was `INIT`. A `WAIT_IDLE` at the head of the program still polls then: it read `BUSY = 1` up to the completion cycle,
which is the model's reading (log 8). -/
def Obligations.RunningCommandCompletes : Prop :=
  ∀ s op E k, s.rstN = true → (∀ a ∈ s.host, a.quiet = true) → s.execState = .running op E k →
    ∃ n t, runFor n s = .next t ∧ t.execState = .idle ∧ t.busy = false
      ∧ t.initDone = (s.initDone || decide (op = .init))
      ∧ traceSets t.trace = traceSets s.trace ++ setsOf E
      ∧ t.lines = applySets s.lines (setsOf E)
      ∧ t.args = s.args ∧ t.result = s.result ∧ t.errCode = s.errCode ∧ t.errSticky = s.errSticky
      ∧ t.cfg = s.cfg
      ∧ (s.busy = true → s.hostOp = .waitIdle → t.host = s.host)

/-- R68, R69, R141: the events of a frame, sent over the wire, do to the receiver's registers what the frame does: that
`exec` of a frame is the receiver's write is the model's choice, log 9. A `CSR` payload has bits [3:0] = 0, the premise R257
asks of a claim through the receiver. The host makes only idle cycles, polls and reads. -/
def Obligations.FrameReachesReceiver : Prop :=
  ∀ s op k (r : ChipReg) p, s.rstN = true → (∀ a ∈ s.host, a.quiet = true) → ChipReadable s → s.lines.csN = true →
    p.length = r.width → (r = .csr → p.headD 0 &&& 0x0F = 0) → s.execState = .running op (regFrame s.cfg r p) k →
    ∃ n t u, runFor n s = .next t ∧ t.execState = .idle ∧ exec (r.frame p) s = .next u
      ∧ SameRegisters t.chip u.chip ∧ t.chip.inFrame = false ∧ t.chipLost = u.chipLost

/-- R62, R69, R70, R182, R187, R244: after `CFG_FIXED_TONE` has run, the selected channel's active registers hold the tone;
what the command does not write (LSRR, RDW, FDW and CW1 of that channel, and the global FR2), and every other channel, holds
what was staged before. `CHANNEL_SCOPED` has its default. The host makes only idle cycles, polls and reads. -/
def Obligations.FixedToneReachesChip : Prop :=
  ∀ s t (ch : Byte), s.rstN = true → (∀ a ∈ s.host, a.quiet = true) → s.execState = .idle → s.initDone = true → ch.toNat ≤ 3 →
    s.args.a0.toNat < s.cfg.fSysclk → s.lines.csN = true → ChipReadable s →
    s.cfg.channelScoped = Config.defaultScoped → exec (.cfgFixedTone ch) s = .next t →
    ∃ n u, runFor n t = .next u ∧ u.execState = .idle ∧ u.chip.csr = 0x10 <<< ch.toNat
      ∧ readBank u.chip.activeG .fr1 = be3 s.cfg.fr1Value
      ∧ readBank u.chip.activeG .fr2 = readBank s.chip.stagedG .fr2
      ∧ ∀ c : Fin 4,
        (c.val = ch.toNat →
          readBank u.chip.active[c] .cfr = be3 s.cfg.cfrFixed
          ∧ readBank u.chip.active[c] .acr = acrBytes s.args.a2 s.cfg.acrBaseFixed
          ∧ readBank u.chip.active[c] .cpow = pwBytes s.args.a1
          ∧ readBank u.chip.active[c] .cftw = ftwBytes s.cfg.fSysclk s.args.a0
          ∧ ∀ r ∈ [ChipReg.lsrr, .rdw, .fdw, .cw1],
              readBank u.chip.active[c] r = readBank s.chip.staged[c] r)
        ∧ (c.val ≠ ch.toNat → u.chip.active[c] = s.chip.staged[c])
end

