-- ==== Sys2Proof/Laws/State.lean ====
section
/-! SUPPORT. What each named update does to each field of the state, by rfl, so that no proof unfolds a record update. -/

namespace Sys2Proof.Machine

/-! ### State.reject -/

@[simp] theorem State.reject_cfg (s : State) (e : ErrCode) : (s.reject e).cfg = s.cfg := rfl
@[simp] theorem State.reject_args (s : State) (e : ErrCode) : (s.reject e).args = s.args := rfl
@[simp] theorem State.reject_busy (s : State) (e : ErrCode) : (s.reject e).busy = s.busy := rfl
@[simp] theorem State.reject_initDone (s : State) (e : ErrCode) : (s.reject e).initDone = s.initDone := rfl
@[simp] theorem State.reject_errSticky (s : State) (e : ErrCode) : (s.reject e).errSticky = true := rfl
@[simp] theorem State.reject_errCode (s : State) (e : ErrCode) : (s.reject e).errCode = e.code := rfl
@[simp] theorem State.reject_result (s : State) (e : ErrCode) : (s.reject e).result = s.result := rfl
@[simp] theorem State.reject_lines (s : State) (e : ErrCode) : (s.reject e).lines = s.lines := rfl
@[simp] theorem State.reject_execState (s : State) (e : ErrCode) : (s.reject e).execState = s.execState := rfl
@[simp] theorem State.reject_rstN (s : State) (e : ErrCode) : (s.reject e).rstN = s.rstN := rfl
@[simp] theorem State.reject_host (s : State) (e : ErrCode) : (s.reject e).host = s.host := rfl
@[simp] theorem State.reject_readData (s : State) (e : ErrCode) : (s.reject e).readData = s.readData := rfl
@[simp] theorem State.reject_chip (s : State) (e : ErrCode) : (s.reject e).chip = s.chip := rfl
@[simp] theorem State.reject_chipLost (s : State) (e : ErrCode) : (s.reject e).chipLost = s.chipLost := rfl
@[simp] theorem State.reject_cycle (s : State) (e : ErrCode) : (s.reject e).cycle = s.cycle := rfl
@[simp] theorem State.reject_trace (s : State) (e : ErrCode) : (s.reject e).trace = s.trace := rfl
@[simp] theorem State.reject_draws (s : State) (e : ErrCode) : (s.reject e).draws = s.draws := rfl

/-! ### State.drawChip -/

@[simp] theorem State.drawChip_cfg (s : State) : (s.drawChip).cfg = s.cfg := rfl
@[simp] theorem State.drawChip_args (s : State) : (s.drawChip).args = s.args := rfl
@[simp] theorem State.drawChip_busy (s : State) : (s.drawChip).busy = s.busy := rfl
@[simp] theorem State.drawChip_initDone (s : State) : (s.drawChip).initDone = s.initDone := rfl
@[simp] theorem State.drawChip_errSticky (s : State) : (s.drawChip).errSticky = s.errSticky := rfl
@[simp] theorem State.drawChip_errCode (s : State) : (s.drawChip).errCode = s.errCode := rfl
@[simp] theorem State.drawChip_result (s : State) : (s.drawChip).result = s.result := rfl
@[simp] theorem State.drawChip_lines (s : State) : (s.drawChip).lines = s.lines := rfl
@[simp] theorem State.drawChip_execState (s : State) : (s.drawChip).execState = s.execState := rfl
@[simp] theorem State.drawChip_rstN (s : State) : (s.drawChip).rstN = s.rstN := rfl
@[simp] theorem State.drawChip_host (s : State) : (s.drawChip).host = s.host := rfl
@[simp] theorem State.drawChip_readData (s : State) : (s.drawChip).readData = s.readData := rfl
@[simp] theorem State.drawChip_chip (s : State) : (s.drawChip).chip = Config.freeChip s.draws := rfl
@[simp] theorem State.drawChip_chipLost (s : State) : (s.drawChip).chipLost = s.chipLost := rfl
@[simp] theorem State.drawChip_cycle (s : State) : (s.drawChip).cycle = s.cycle := rfl
@[simp] theorem State.drawChip_trace (s : State) : (s.drawChip).trace = s.trace := rfl
@[simp] theorem State.drawChip_draws (s : State) : (s.drawChip).draws = s.draws + 1 := rfl

/-! ### State.chipReset -/

@[simp] theorem State.chipReset_cfg (s : State) : (s.chipReset).cfg = s.cfg := rfl
@[simp] theorem State.chipReset_args (s : State) : (s.chipReset).args = s.args := rfl
@[simp] theorem State.chipReset_busy (s : State) : (s.chipReset).busy = s.busy := rfl
@[simp] theorem State.chipReset_initDone (s : State) : (s.chipReset).initDone = s.initDone := rfl
@[simp] theorem State.chipReset_errSticky (s : State) : (s.chipReset).errSticky = s.errSticky := rfl
@[simp] theorem State.chipReset_errCode (s : State) : (s.chipReset).errCode = s.errCode := rfl
@[simp] theorem State.chipReset_result (s : State) : (s.chipReset).result = s.result := rfl
@[simp] theorem State.chipReset_lines (s : State) : (s.chipReset).lines = s.lines := rfl
@[simp] theorem State.chipReset_execState (s : State) : (s.chipReset).execState = s.execState := rfl
@[simp] theorem State.chipReset_rstN (s : State) : (s.chipReset).rstN = s.rstN := rfl
@[simp] theorem State.chipReset_host (s : State) : (s.chipReset).host = s.host := rfl
@[simp] theorem State.chipReset_readData (s : State) : (s.chipReset).readData = s.readData := rfl
@[simp] theorem State.chipReset_chip (s : State) : (s.chipReset).chip = Config.freeChip s.draws := rfl
@[simp] theorem State.chipReset_chipLost (s : State) : (s.chipReset).chipLost = false := rfl
@[simp] theorem State.chipReset_cycle (s : State) : (s.chipReset).cycle = s.cycle := rfl
@[simp] theorem State.chipReset_trace (s : State) : (s.chipReset).trace = s.trace := rfl
@[simp] theorem State.chipReset_draws (s : State) : (s.chipReset).draws = s.draws + 1 := rfl

/-! ### State.running -/

@[simp] theorem State.running_cfg (s : State) (op : Opcode) (E : List Event) : (s.running op E).cfg = s.cfg := rfl
@[simp] theorem State.running_args (s : State) (op : Opcode) (E : List Event) : (s.running op E).args = s.args := rfl
@[simp] theorem State.running_busy (s : State) (op : Opcode) (E : List Event) : (s.running op E).busy = s.busy := rfl
@[simp] theorem State.running_initDone (s : State) (op : Opcode) (E : List Event) : (s.running op E).initDone = s.initDone := rfl
@[simp] theorem State.running_errSticky (s : State) (op : Opcode) (E : List Event) : (s.running op E).errSticky = s.errSticky := rfl
@[simp] theorem State.running_errCode (s : State) (op : Opcode) (E : List Event) : (s.running op E).errCode = s.errCode := rfl
@[simp] theorem State.running_result (s : State) (op : Opcode) (E : List Event) : (s.running op E).result = s.result := rfl
@[simp] theorem State.running_lines (s : State) (op : Opcode) (E : List Event) : (s.running op E).lines = s.lines := rfl
@[simp] theorem State.running_execState (s : State) (op : Opcode) (E : List Event) : (s.running op E).execState = .running op E (minGap E - 1 + Config.freeDelay s.draws) := rfl
@[simp] theorem State.running_rstN (s : State) (op : Opcode) (E : List Event) : (s.running op E).rstN = s.rstN := rfl
@[simp] theorem State.running_host (s : State) (op : Opcode) (E : List Event) : (s.running op E).host = s.host := rfl
@[simp] theorem State.running_readData (s : State) (op : Opcode) (E : List Event) : (s.running op E).readData = s.readData := rfl
@[simp] theorem State.running_chip (s : State) (op : Opcode) (E : List Event) : (s.running op E).chip = s.chip := rfl
@[simp] theorem State.running_chipLost (s : State) (op : Opcode) (E : List Event) : (s.running op E).chipLost = s.chipLost := rfl
@[simp] theorem State.running_cycle (s : State) (op : Opcode) (E : List Event) : (s.running op E).cycle = s.cycle := rfl
@[simp] theorem State.running_trace (s : State) (op : Opcode) (E : List Event) : (s.running op E).trace = s.trace := rfl
@[simp] theorem State.running_draws (s : State) (op : Opcode) (E : List Event) : (s.running op E).draws = s.draws + 1 := rfl

/-! ### State.issue -/

@[simp] theorem State.issue_cfg (s : State) (op : Opcode) (E : List Event) : (s.issue op E).cfg = s.cfg := rfl
@[simp] theorem State.issue_args (s : State) (op : Opcode) (E : List Event) : (s.issue op E).args = s.args := rfl
@[simp] theorem State.issue_busy (s : State) (op : Opcode) (E : List Event) : (s.issue op E).busy = true := rfl
@[simp] theorem State.issue_initDone (s : State) (op : Opcode) (E : List Event) : (s.issue op E).initDone = s.initDone := rfl
@[simp] theorem State.issue_errSticky (s : State) (op : Opcode) (E : List Event) : (s.issue op E).errSticky = s.errSticky := rfl
@[simp] theorem State.issue_errCode (s : State) (op : Opcode) (E : List Event) : (s.issue op E).errCode = s.errCode := rfl
@[simp] theorem State.issue_result (s : State) (op : Opcode) (E : List Event) : (s.issue op E).result = s.result := rfl
@[simp] theorem State.issue_lines (s : State) (op : Opcode) (E : List Event) : (s.issue op E).lines = s.lines := rfl
@[simp] theorem State.issue_execState (s : State) (op : Opcode) (E : List Event) : (s.issue op E).execState = .running op E (minGap E - 1 + Config.freeDelay s.draws) := rfl
@[simp] theorem State.issue_rstN (s : State) (op : Opcode) (E : List Event) : (s.issue op E).rstN = s.rstN := rfl
@[simp] theorem State.issue_host (s : State) (op : Opcode) (E : List Event) : (s.issue op E).host = s.host := rfl
@[simp] theorem State.issue_readData (s : State) (op : Opcode) (E : List Event) : (s.issue op E).readData = s.readData := rfl
@[simp] theorem State.issue_chip (s : State) (op : Opcode) (E : List Event) : (s.issue op E).chip = s.chip := rfl
@[simp] theorem State.issue_chipLost (s : State) (op : Opcode) (E : List Event) : (s.issue op E).chipLost = s.chipLost := rfl
@[simp] theorem State.issue_cycle (s : State) (op : Opcode) (E : List Event) : (s.issue op E).cycle = s.cycle := rfl
@[simp] theorem State.issue_trace (s : State) (op : Opcode) (E : List Event) : (s.issue op E).trace = s.trace := rfl
@[simp] theorem State.issue_draws (s : State) (op : Opcode) (E : List Event) : (s.issue op E).draws = s.draws + 1 := rfl

/-! ### State.emit -/

@[simp] theorem State.emit_cfg (s : State) (l : Line) (v : Bool) : (s.emit l v).cfg = s.cfg := rfl
@[simp] theorem State.emit_args (s : State) (l : Line) (v : Bool) : (s.emit l v).args = s.args := rfl
@[simp] theorem State.emit_busy (s : State) (l : Line) (v : Bool) : (s.emit l v).busy = s.busy := rfl
@[simp] theorem State.emit_initDone (s : State) (l : Line) (v : Bool) : (s.emit l v).initDone = s.initDone := rfl
@[simp] theorem State.emit_errSticky (s : State) (l : Line) (v : Bool) : (s.emit l v).errSticky = s.errSticky := rfl
@[simp] theorem State.emit_errCode (s : State) (l : Line) (v : Bool) : (s.emit l v).errCode = s.errCode := rfl
@[simp] theorem State.emit_result (s : State) (l : Line) (v : Bool) : (s.emit l v).result = s.result := rfl
@[simp] theorem State.emit_lines (s : State) (l : Line) (v : Bool) : (s.emit l v).lines = s.lines.set l v := rfl
@[simp] theorem State.emit_execState (s : State) (l : Line) (v : Bool) : (s.emit l v).execState = s.execState := rfl
@[simp] theorem State.emit_rstN (s : State) (l : Line) (v : Bool) : (s.emit l v).rstN = s.rstN := rfl
@[simp] theorem State.emit_host (s : State) (l : Line) (v : Bool) : (s.emit l v).host = s.host := rfl
@[simp] theorem State.emit_readData (s : State) (l : Line) (v : Bool) : (s.emit l v).readData = s.readData := rfl
@[simp] theorem State.emit_chip (s : State) (l : Line) (v : Bool) : (s.emit l v).chip = s.chip := rfl
@[simp] theorem State.emit_chipLost (s : State) (l : Line) (v : Bool) : (s.emit l v).chipLost = s.chipLost := rfl
@[simp] theorem State.emit_cycle (s : State) (l : Line) (v : Bool) : (s.emit l v).cycle = s.cycle := rfl
@[simp] theorem State.emit_trace (s : State) (l : Line) (v : Bool) : (s.emit l v).trace = s.trace ++ [⟨s.cycle, l, v⟩] := rfl
@[simp] theorem State.emit_draws (s : State) (l : Line) (v : Bool) : (s.emit l v).draws = s.draws := rfl

/-! ### State.complete -/

@[simp] theorem State.complete_cfg (s : State) (op : Opcode) : (s.complete op).cfg = s.cfg := rfl
@[simp] theorem State.complete_args (s : State) (op : Opcode) : (s.complete op).args = s.args := rfl
@[simp] theorem State.complete_busy (s : State) (op : Opcode) : (s.complete op).busy = false := rfl
@[simp] theorem State.complete_initDone (s : State) (op : Opcode) : (s.complete op).initDone = (s.initDone || op == .init) := rfl
@[simp] theorem State.complete_errSticky (s : State) (op : Opcode) : (s.complete op).errSticky = s.errSticky := rfl
@[simp] theorem State.complete_errCode (s : State) (op : Opcode) : (s.complete op).errCode = s.errCode := rfl
@[simp] theorem State.complete_result (s : State) (op : Opcode) : (s.complete op).result = s.result := rfl
@[simp] theorem State.complete_lines (s : State) (op : Opcode) : (s.complete op).lines = s.lines := rfl
@[simp] theorem State.complete_execState (s : State) (op : Opcode) : (s.complete op).execState = .idle := rfl
@[simp] theorem State.complete_rstN (s : State) (op : Opcode) : (s.complete op).rstN = s.rstN := rfl
@[simp] theorem State.complete_host (s : State) (op : Opcode) : (s.complete op).host = s.host := rfl
@[simp] theorem State.complete_readData (s : State) (op : Opcode) : (s.complete op).readData = s.readData := rfl
@[simp] theorem State.complete_chip (s : State) (op : Opcode) : (s.complete op).chip = s.chip := rfl
@[simp] theorem State.complete_chipLost (s : State) (op : Opcode) : (s.complete op).chipLost = s.chipLost := rfl
@[simp] theorem State.complete_cycle (s : State) (op : Opcode) : (s.complete op).cycle = s.cycle := rfl
@[simp] theorem State.complete_trace (s : State) (op : Opcode) : (s.complete op).trace = s.trace := rfl
@[simp] theorem State.complete_draws (s : State) (op : Opcode) : (s.complete op).draws = s.draws := rfl

/-! ### State.beginFrame -/

@[simp] theorem State.beginFrame_cfg (s : State) : (s.beginFrame).cfg = s.cfg := rfl
@[simp] theorem State.beginFrame_args (s : State) : (s.beginFrame).args = s.args := rfl
@[simp] theorem State.beginFrame_busy (s : State) : (s.beginFrame).busy = s.busy := rfl
@[simp] theorem State.beginFrame_initDone (s : State) : (s.beginFrame).initDone = s.initDone := rfl
@[simp] theorem State.beginFrame_errSticky (s : State) : (s.beginFrame).errSticky = s.errSticky := rfl
@[simp] theorem State.beginFrame_errCode (s : State) : (s.beginFrame).errCode = s.errCode := rfl
@[simp] theorem State.beginFrame_result (s : State) : (s.beginFrame).result = s.result := rfl
@[simp] theorem State.beginFrame_lines (s : State) : (s.beginFrame).lines = s.lines := rfl
@[simp] theorem State.beginFrame_execState (s : State) : (s.beginFrame).execState = s.execState := rfl
@[simp] theorem State.beginFrame_rstN (s : State) : (s.beginFrame).rstN = s.rstN := rfl
@[simp] theorem State.beginFrame_host (s : State) : (s.beginFrame).host = s.host := rfl
@[simp] theorem State.beginFrame_readData (s : State) : (s.beginFrame).readData = s.readData := rfl
@[simp] theorem State.beginFrame_chip (s : State) : (s.beginFrame).chip = { s.chip with inFrame := true, buf := [] } := rfl
@[simp] theorem State.beginFrame_chipLost (s : State) : (s.beginFrame).chipLost = s.chipLost := rfl
@[simp] theorem State.beginFrame_cycle (s : State) : (s.beginFrame).cycle = s.cycle := rfl
@[simp] theorem State.beginFrame_trace (s : State) : (s.beginFrame).trace = s.trace := rfl
@[simp] theorem State.beginFrame_draws (s : State) : (s.beginFrame).draws = s.draws := rfl

/-! ### State.updateChip -/

@[simp] theorem State.updateChip_cfg (s : State) : (s.updateChip).cfg = s.cfg := rfl
@[simp] theorem State.updateChip_args (s : State) : (s.updateChip).args = s.args := rfl
@[simp] theorem State.updateChip_busy (s : State) : (s.updateChip).busy = s.busy := rfl
@[simp] theorem State.updateChip_initDone (s : State) : (s.updateChip).initDone = s.initDone := rfl
@[simp] theorem State.updateChip_errSticky (s : State) : (s.updateChip).errSticky = s.errSticky := rfl
@[simp] theorem State.updateChip_errCode (s : State) : (s.updateChip).errCode = s.errCode := rfl
@[simp] theorem State.updateChip_result (s : State) : (s.updateChip).result = s.result := rfl
@[simp] theorem State.updateChip_lines (s : State) : (s.updateChip).lines = s.lines := rfl
@[simp] theorem State.updateChip_execState (s : State) : (s.updateChip).execState = s.execState := rfl
@[simp] theorem State.updateChip_rstN (s : State) : (s.updateChip).rstN = s.rstN := rfl
@[simp] theorem State.updateChip_host (s : State) : (s.updateChip).host = s.host := rfl
@[simp] theorem State.updateChip_readData (s : State) : (s.updateChip).readData = s.readData := rfl
@[simp] theorem State.updateChip_chip (s : State) : (s.updateChip).chip = { s.chip with active := s.chip.staged, activeG := s.chip.stagedG } := rfl
@[simp] theorem State.updateChip_chipLost (s : State) : (s.updateChip).chipLost = s.chipLost := rfl
@[simp] theorem State.updateChip_cycle (s : State) : (s.updateChip).cycle = s.cycle := rfl
@[simp] theorem State.updateChip_trace (s : State) : (s.updateChip).trace = s.trace := rfl
@[simp] theorem State.updateChip_draws (s : State) : (s.updateChip).draws = s.draws := rfl

/-! ### State.writeCsr -/

@[simp] theorem State.writeCsr_cfg (s : State) (p : List Byte) : (s.writeCsr p).cfg = s.cfg := rfl
@[simp] theorem State.writeCsr_args (s : State) (p : List Byte) : (s.writeCsr p).args = s.args := rfl
@[simp] theorem State.writeCsr_busy (s : State) (p : List Byte) : (s.writeCsr p).busy = s.busy := rfl
@[simp] theorem State.writeCsr_initDone (s : State) (p : List Byte) : (s.writeCsr p).initDone = s.initDone := rfl
@[simp] theorem State.writeCsr_errSticky (s : State) (p : List Byte) : (s.writeCsr p).errSticky = s.errSticky := rfl
@[simp] theorem State.writeCsr_errCode (s : State) (p : List Byte) : (s.writeCsr p).errCode = s.errCode := rfl
@[simp] theorem State.writeCsr_result (s : State) (p : List Byte) : (s.writeCsr p).result = s.result := rfl
@[simp] theorem State.writeCsr_lines (s : State) (p : List Byte) : (s.writeCsr p).lines = s.lines := rfl
@[simp] theorem State.writeCsr_execState (s : State) (p : List Byte) : (s.writeCsr p).execState = s.execState := rfl
@[simp] theorem State.writeCsr_rstN (s : State) (p : List Byte) : (s.writeCsr p).rstN = s.rstN := rfl
@[simp] theorem State.writeCsr_host (s : State) (p : List Byte) : (s.writeCsr p).host = s.host := rfl
@[simp] theorem State.writeCsr_readData (s : State) (p : List Byte) : (s.writeCsr p).readData = s.readData := rfl
@[simp] theorem State.writeCsr_chip (s : State) (p : List Byte) : (s.writeCsr p).chip = { s.chip with csr := p.headD 0 } := rfl
@[simp] theorem State.writeCsr_chipLost (s : State) (p : List Byte) : (s.writeCsr p).chipLost = (p.headD 0 &&& 0x0F != 0) := rfl
@[simp] theorem State.writeCsr_cycle (s : State) (p : List Byte) : (s.writeCsr p).cycle = s.cycle := rfl
@[simp] theorem State.writeCsr_trace (s : State) (p : List Byte) : (s.writeCsr p).trace = s.trace := rfl
@[simp] theorem State.writeCsr_draws (s : State) (p : List Byte) : (s.writeCsr p).draws = s.draws := rfl

/-! ### Lines -/

@[simp] theorem Lines.get_set_self (ls : Lines) (l : Line) (v : Bool) : (ls.set l v).get l = v := by
  cases l <;> rfl

@[simp] theorem Lines.get_set_other (ls : Lines) (l m : Line) (v : Bool) (h : m ≠ l) :
    (ls.set l v).get m = ls.get m := by
  cases l <;> cases m <;> first | rfl | exact absurd rfl h

@[simp] theorem Lines.set_csN_csN (ls : Lines) (v : Bool) : (ls.set .csN v).csN = v := rfl
@[simp] theorem Lines.set_csN_sclk (ls : Lines) (v : Bool) : (ls.set .csN v).sclk = ls.sclk := rfl
@[simp] theorem Lines.set_csN_sdio0 (ls : Lines) (v : Bool) : (ls.set .csN v).sdio0 = ls.sdio0 := rfl
@[simp] theorem Lines.set_csN_sdio1 (ls : Lines) (v : Bool) : (ls.set .csN v).sdio1 = ls.sdio1 := rfl
@[simp] theorem Lines.set_csN_sdio2 (ls : Lines) (v : Bool) : (ls.set .csN v).sdio2 = ls.sdio2 := rfl
@[simp] theorem Lines.set_csN_sdio3 (ls : Lines) (v : Bool) : (ls.set .csN v).sdio3 = ls.sdio3 := rfl
@[simp] theorem Lines.set_csN_ioUpdate (ls : Lines) (v : Bool) : (ls.set .csN v).ioUpdate = ls.ioUpdate := rfl
@[simp] theorem Lines.set_csN_ddsReset (ls : Lines) (v : Bool) : (ls.set .csN v).ddsReset = ls.ddsReset := rfl
@[simp] theorem Lines.set_csN_pwrDwnN (ls : Lines) (v : Bool) : (ls.set .csN v).pwrDwnN = ls.pwrDwnN := rfl
@[simp] theorem Lines.set_sclk_csN (ls : Lines) (v : Bool) : (ls.set .sclk v).csN = ls.csN := rfl
@[simp] theorem Lines.set_sclk_sclk (ls : Lines) (v : Bool) : (ls.set .sclk v).sclk = v := rfl
@[simp] theorem Lines.set_sclk_sdio0 (ls : Lines) (v : Bool) : (ls.set .sclk v).sdio0 = ls.sdio0 := rfl
@[simp] theorem Lines.set_sclk_sdio1 (ls : Lines) (v : Bool) : (ls.set .sclk v).sdio1 = ls.sdio1 := rfl
@[simp] theorem Lines.set_sclk_sdio2 (ls : Lines) (v : Bool) : (ls.set .sclk v).sdio2 = ls.sdio2 := rfl
@[simp] theorem Lines.set_sclk_sdio3 (ls : Lines) (v : Bool) : (ls.set .sclk v).sdio3 = ls.sdio3 := rfl
@[simp] theorem Lines.set_sclk_ioUpdate (ls : Lines) (v : Bool) : (ls.set .sclk v).ioUpdate = ls.ioUpdate := rfl
@[simp] theorem Lines.set_sclk_ddsReset (ls : Lines) (v : Bool) : (ls.set .sclk v).ddsReset = ls.ddsReset := rfl
@[simp] theorem Lines.set_sclk_pwrDwnN (ls : Lines) (v : Bool) : (ls.set .sclk v).pwrDwnN = ls.pwrDwnN := rfl
@[simp] theorem Lines.set_sdio0_csN (ls : Lines) (v : Bool) : (ls.set .sdio0 v).csN = ls.csN := rfl
@[simp] theorem Lines.set_sdio0_sclk (ls : Lines) (v : Bool) : (ls.set .sdio0 v).sclk = ls.sclk := rfl
@[simp] theorem Lines.set_sdio0_sdio0 (ls : Lines) (v : Bool) : (ls.set .sdio0 v).sdio0 = v := rfl
@[simp] theorem Lines.set_sdio0_sdio1 (ls : Lines) (v : Bool) : (ls.set .sdio0 v).sdio1 = ls.sdio1 := rfl
@[simp] theorem Lines.set_sdio0_sdio2 (ls : Lines) (v : Bool) : (ls.set .sdio0 v).sdio2 = ls.sdio2 := rfl
@[simp] theorem Lines.set_sdio0_sdio3 (ls : Lines) (v : Bool) : (ls.set .sdio0 v).sdio3 = ls.sdio3 := rfl
@[simp] theorem Lines.set_sdio0_ioUpdate (ls : Lines) (v : Bool) : (ls.set .sdio0 v).ioUpdate = ls.ioUpdate := rfl
@[simp] theorem Lines.set_sdio0_ddsReset (ls : Lines) (v : Bool) : (ls.set .sdio0 v).ddsReset = ls.ddsReset := rfl
@[simp] theorem Lines.set_sdio0_pwrDwnN (ls : Lines) (v : Bool) : (ls.set .sdio0 v).pwrDwnN = ls.pwrDwnN := rfl
@[simp] theorem Lines.set_sdio1_csN (ls : Lines) (v : Bool) : (ls.set .sdio1 v).csN = ls.csN := rfl
@[simp] theorem Lines.set_sdio1_sclk (ls : Lines) (v : Bool) : (ls.set .sdio1 v).sclk = ls.sclk := rfl
@[simp] theorem Lines.set_sdio1_sdio0 (ls : Lines) (v : Bool) : (ls.set .sdio1 v).sdio0 = ls.sdio0 := rfl
@[simp] theorem Lines.set_sdio1_sdio1 (ls : Lines) (v : Bool) : (ls.set .sdio1 v).sdio1 = v := rfl
@[simp] theorem Lines.set_sdio1_sdio2 (ls : Lines) (v : Bool) : (ls.set .sdio1 v).sdio2 = ls.sdio2 := rfl
@[simp] theorem Lines.set_sdio1_sdio3 (ls : Lines) (v : Bool) : (ls.set .sdio1 v).sdio3 = ls.sdio3 := rfl
@[simp] theorem Lines.set_sdio1_ioUpdate (ls : Lines) (v : Bool) : (ls.set .sdio1 v).ioUpdate = ls.ioUpdate := rfl
@[simp] theorem Lines.set_sdio1_ddsReset (ls : Lines) (v : Bool) : (ls.set .sdio1 v).ddsReset = ls.ddsReset := rfl
@[simp] theorem Lines.set_sdio1_pwrDwnN (ls : Lines) (v : Bool) : (ls.set .sdio1 v).pwrDwnN = ls.pwrDwnN := rfl
@[simp] theorem Lines.set_sdio2_csN (ls : Lines) (v : Bool) : (ls.set .sdio2 v).csN = ls.csN := rfl
@[simp] theorem Lines.set_sdio2_sclk (ls : Lines) (v : Bool) : (ls.set .sdio2 v).sclk = ls.sclk := rfl
@[simp] theorem Lines.set_sdio2_sdio0 (ls : Lines) (v : Bool) : (ls.set .sdio2 v).sdio0 = ls.sdio0 := rfl
@[simp] theorem Lines.set_sdio2_sdio1 (ls : Lines) (v : Bool) : (ls.set .sdio2 v).sdio1 = ls.sdio1 := rfl
@[simp] theorem Lines.set_sdio2_sdio2 (ls : Lines) (v : Bool) : (ls.set .sdio2 v).sdio2 = v := rfl
@[simp] theorem Lines.set_sdio2_sdio3 (ls : Lines) (v : Bool) : (ls.set .sdio2 v).sdio3 = ls.sdio3 := rfl
@[simp] theorem Lines.set_sdio2_ioUpdate (ls : Lines) (v : Bool) : (ls.set .sdio2 v).ioUpdate = ls.ioUpdate := rfl
@[simp] theorem Lines.set_sdio2_ddsReset (ls : Lines) (v : Bool) : (ls.set .sdio2 v).ddsReset = ls.ddsReset := rfl
@[simp] theorem Lines.set_sdio2_pwrDwnN (ls : Lines) (v : Bool) : (ls.set .sdio2 v).pwrDwnN = ls.pwrDwnN := rfl
@[simp] theorem Lines.set_sdio3_csN (ls : Lines) (v : Bool) : (ls.set .sdio3 v).csN = ls.csN := rfl
@[simp] theorem Lines.set_sdio3_sclk (ls : Lines) (v : Bool) : (ls.set .sdio3 v).sclk = ls.sclk := rfl
@[simp] theorem Lines.set_sdio3_sdio0 (ls : Lines) (v : Bool) : (ls.set .sdio3 v).sdio0 = ls.sdio0 := rfl
@[simp] theorem Lines.set_sdio3_sdio1 (ls : Lines) (v : Bool) : (ls.set .sdio3 v).sdio1 = ls.sdio1 := rfl
@[simp] theorem Lines.set_sdio3_sdio2 (ls : Lines) (v : Bool) : (ls.set .sdio3 v).sdio2 = ls.sdio2 := rfl
@[simp] theorem Lines.set_sdio3_sdio3 (ls : Lines) (v : Bool) : (ls.set .sdio3 v).sdio3 = v := rfl
@[simp] theorem Lines.set_sdio3_ioUpdate (ls : Lines) (v : Bool) : (ls.set .sdio3 v).ioUpdate = ls.ioUpdate := rfl
@[simp] theorem Lines.set_sdio3_ddsReset (ls : Lines) (v : Bool) : (ls.set .sdio3 v).ddsReset = ls.ddsReset := rfl
@[simp] theorem Lines.set_sdio3_pwrDwnN (ls : Lines) (v : Bool) : (ls.set .sdio3 v).pwrDwnN = ls.pwrDwnN := rfl
@[simp] theorem Lines.set_ioUpdate_csN (ls : Lines) (v : Bool) : (ls.set .ioUpdate v).csN = ls.csN := rfl
@[simp] theorem Lines.set_ioUpdate_sclk (ls : Lines) (v : Bool) : (ls.set .ioUpdate v).sclk = ls.sclk := rfl
@[simp] theorem Lines.set_ioUpdate_sdio0 (ls : Lines) (v : Bool) : (ls.set .ioUpdate v).sdio0 = ls.sdio0 := rfl
@[simp] theorem Lines.set_ioUpdate_sdio1 (ls : Lines) (v : Bool) : (ls.set .ioUpdate v).sdio1 = ls.sdio1 := rfl
@[simp] theorem Lines.set_ioUpdate_sdio2 (ls : Lines) (v : Bool) : (ls.set .ioUpdate v).sdio2 = ls.sdio2 := rfl
@[simp] theorem Lines.set_ioUpdate_sdio3 (ls : Lines) (v : Bool) : (ls.set .ioUpdate v).sdio3 = ls.sdio3 := rfl
@[simp] theorem Lines.set_ioUpdate_ioUpdate (ls : Lines) (v : Bool) : (ls.set .ioUpdate v).ioUpdate = v := rfl
@[simp] theorem Lines.set_ioUpdate_ddsReset (ls : Lines) (v : Bool) : (ls.set .ioUpdate v).ddsReset = ls.ddsReset := rfl
@[simp] theorem Lines.set_ioUpdate_pwrDwnN (ls : Lines) (v : Bool) : (ls.set .ioUpdate v).pwrDwnN = ls.pwrDwnN := rfl
@[simp] theorem Lines.set_ddsReset_csN (ls : Lines) (v : Bool) : (ls.set .ddsReset v).csN = ls.csN := rfl
@[simp] theorem Lines.set_ddsReset_sclk (ls : Lines) (v : Bool) : (ls.set .ddsReset v).sclk = ls.sclk := rfl
@[simp] theorem Lines.set_ddsReset_sdio0 (ls : Lines) (v : Bool) : (ls.set .ddsReset v).sdio0 = ls.sdio0 := rfl
@[simp] theorem Lines.set_ddsReset_sdio1 (ls : Lines) (v : Bool) : (ls.set .ddsReset v).sdio1 = ls.sdio1 := rfl
@[simp] theorem Lines.set_ddsReset_sdio2 (ls : Lines) (v : Bool) : (ls.set .ddsReset v).sdio2 = ls.sdio2 := rfl
@[simp] theorem Lines.set_ddsReset_sdio3 (ls : Lines) (v : Bool) : (ls.set .ddsReset v).sdio3 = ls.sdio3 := rfl
@[simp] theorem Lines.set_ddsReset_ioUpdate (ls : Lines) (v : Bool) : (ls.set .ddsReset v).ioUpdate = ls.ioUpdate := rfl
@[simp] theorem Lines.set_ddsReset_ddsReset (ls : Lines) (v : Bool) : (ls.set .ddsReset v).ddsReset = v := rfl
@[simp] theorem Lines.set_ddsReset_pwrDwnN (ls : Lines) (v : Bool) : (ls.set .ddsReset v).pwrDwnN = ls.pwrDwnN := rfl
@[simp] theorem Lines.set_pwrDwnN_csN (ls : Lines) (v : Bool) : (ls.set .pwrDwnN v).csN = ls.csN := rfl
@[simp] theorem Lines.set_pwrDwnN_sclk (ls : Lines) (v : Bool) : (ls.set .pwrDwnN v).sclk = ls.sclk := rfl
@[simp] theorem Lines.set_pwrDwnN_sdio0 (ls : Lines) (v : Bool) : (ls.set .pwrDwnN v).sdio0 = ls.sdio0 := rfl
@[simp] theorem Lines.set_pwrDwnN_sdio1 (ls : Lines) (v : Bool) : (ls.set .pwrDwnN v).sdio1 = ls.sdio1 := rfl
@[simp] theorem Lines.set_pwrDwnN_sdio2 (ls : Lines) (v : Bool) : (ls.set .pwrDwnN v).sdio2 = ls.sdio2 := rfl
@[simp] theorem Lines.set_pwrDwnN_sdio3 (ls : Lines) (v : Bool) : (ls.set .pwrDwnN v).sdio3 = ls.sdio3 := rfl
@[simp] theorem Lines.set_pwrDwnN_ioUpdate (ls : Lines) (v : Bool) : (ls.set .pwrDwnN v).ioUpdate = ls.ioUpdate := rfl
@[simp] theorem Lines.set_pwrDwnN_ddsReset (ls : Lines) (v : Bool) : (ls.set .pwrDwnN v).ddsReset = ls.ddsReset := rfl
@[simp] theorem Lines.set_pwrDwnN_pwrDwnN (ls : Lines) (v : Bool) : (ls.set .pwrDwnN v).pwrDwnN = v := rfl

end Sys2Proof.Machine
end

