-- ==== Sys2Proof/Laws/Ops.lean ====
section
/-! SUPPORT. For each shared operation, everything it can do, said once. -/

namespace Sys2Proof.Machine

/-! ### Checks and offers -/

theorem firstError_none_iff (checks : List (Bool × ErrCode)) :
    firstError checks = none ↔ ∀ c ∈ checks, c.1 = true := by
  induction checks with
  | nil => simp [firstError]
  | cons c rest ih =>
    obtain ⟨b, e⟩ := c
    cases b <;> simp [firstError, ih]

theorem firstError_mem {checks : List (Bool × ErrCode)} {e : ErrCode} (h : firstError checks = some e) :
    (false, e) ∈ checks := by
  induction checks with
  | nil => simp [firstError] at h
  | cons c rest ih =>
    obtain ⟨b, f⟩ := c
    cases b
    · simp [firstError] at h; simp [h]
    · simp only [firstError, if_true] at h; exact List.mem_cons_of_mem _ (ih h)

/-- An offered command is rejected as busy, rejected by its first failing check, or accepted (R211). -/
theorem offer_cases {s t : State} {checks : List (Bool × ErrCode)} {effect : State → State}
    (h : offer s checks effect = .next t) :
    (s.execState.isRunning = true ∧ t = s.reject .busy) ∨
    (s.execState.isRunning = false ∧ ∃ e, firstError checks = some e ∧ t = s.reject e) ∨
    (s.execState.isRunning = false ∧ firstError checks = none ∧ t = effect { s with errCode := errNone }) := by
  unfold offer at h
  split at h
  · exact .inl ⟨‹_›, by simpa using h.symm⟩
  · rename_i hr
    have hr : s.execState.isRunning = false := by simpa using hr
    split at h
    · exact .inr (.inl ⟨hr, _, ‹_›, by simpa using h.symm⟩)
    · exact .inr (.inr ⟨hr, ‹_›, by simpa using h.symm⟩)

theorem offer_busy {s : State} (h : s.execState.isRunning = true) (checks : List (Bool × ErrCode))
    (effect : State → State) : offer s checks effect = .next (s.reject .busy) := by
  simp [offer, h]

theorem offer_rejected {s : State} {checks : List (Bool × ErrCode)} {e : ErrCode}
    (h : s.execState.isRunning = false) (hc : firstError checks = some e) (effect : State → State) :
    offer s checks effect = .next (s.reject e) := by
  simp [offer, h, hc]

theorem offer_accepted {s : State} {checks : List (Bool × ErrCode)}
    (h : s.execState.isRunning = false) (hc : firstError checks = none) (effect : State → State) :
    offer s checks effect = .next (effect { s with errCode := errNone }) := by
  simp [offer, h, hc]

/-- An offer always answers a next state: no command stops the machine. -/
theorem offer_next (s : State) (checks : List (Bool × ErrCode)) (effect : State → State) :
    ∃ t, offer s checks effect = .next t := by
  unfold offer
  split
  · exact ⟨_, rfl⟩
  · split <;> exact ⟨_, rfl⟩

/-! ### Writes of the reference receiver -/

/-- What a complete write can do: reset, lost, or the write itself (R69). -/
theorem State.onWrite_cases (s : State) (r : ChipReg) (p : List Byte) (write : State → State) :
    (s.chipInReset = true ∧ s.onWrite r p write = s.chipReset) ∨
    (s.chipInReset = false ∧ (s.chipLost = true ∨ p.length ≠ r.width) ∧ s.onWrite r p write = s.drawChip) ∨
    (s.chipInReset = false ∧ s.chipLost = false ∧ p.length = r.width ∧ s.onWrite r p write = write s) := by
  unfold State.onWrite
  cases hr : s.chipInReset <;> cases hl : s.chipLost <;> by_cases hp : p.length = r.width <;> simp [hp]

theorem State.onWrite_writes {s : State} {r : ChipReg} {p : List Byte} (hr : s.chipInReset = false)
    (hl : s.chipLost = false) (hp : p.length = r.width) (write : State → State) :
    s.onWrite r p write = write s := by
  simp [State.onWrite, hr, hl, hp]

/-- `t` differs from `s` at most in what is known of the chip and in the index of the next free value. -/
def SameBlock (s t : State) : Prop :=
  t = { s with chip := t.chip, chipLost := t.chipLost, draws := t.draws }

theorem SameBlock.refl (s : State) : SameBlock s s := rfl

theorem SameBlock.trans {s t u : State} (h : SameBlock s t) (k : SameBlock t u) : SameBlock s u := by
  unfold SameBlock at *
  rw [k, h]

theorem SameBlock.drawChip (s : State) : SameBlock s s.drawChip := rfl

theorem SameBlock.chipReset (s : State) : SameBlock s s.chipReset := rfl

theorem SameBlock.chip (s : State) (k : Chip) : SameBlock s { s with chip := k } := rfl

theorem SameBlock.stage (s : State) (r : ChipReg) (p : List Byte) : SameBlock s (s.stage r p) := by
  unfold State.stage; split <;> rfl

theorem SameBlock.writeCsr (s : State) (p : List Byte) : SameBlock s (s.writeCsr p) := rfl

theorem SameBlock.onWrite {s : State} {r : ChipReg} {p : List Byte} {write : State → State}
    (h : SameBlock s (write s)) : SameBlock s (s.onWrite r p write) := by
  unfold State.onWrite
  split
  · exact .chipReset s
  · split
    · exact .drawChip s
    · exact h

/-! ### Event lists -/

@[simp] theorem setsOf_append (E F : List Event) : setsOf (E ++ F) = setsOf E ++ setsOf F := by
  induction E with
  | nil => rfl
  | cons e rest ih => cases e <;> simp [setsOf, ih]

@[simp] theorem traceSets_append (T U : List TraceEvent) : traceSets (T ++ U) = traceSets T ++ traceSets U := by
  simp [traceSets]

@[simp] theorem applySets_append (ls : Lines) (T U : List (Line × Bool)) :
    applySets ls (T ++ U) = applySets (applySets ls T) U := by
  simp [applySets]

/-- The next `Set` of a list is the first of its `Set`s; the rest follow. -/
theorem nextSet_some {E rest : List Event} {l : Line} {v : Bool} (h : nextSet E = some (l, v, rest)) :
    setsOf E = (l, v) :: setsOf rest ∧ (∀ e ∈ rest, e ∈ E) ∧ .set l v ∈ E := by
  induction E with
  | nil => simp [nextSet] at h
  | cons e F ih =>
    cases e with
    | wait t =>
      obtain ⟨h1, h2, h3⟩ := ih (by simpa [nextSet] using h)
      exact ⟨by simpa [setsOf] using h1, fun e he => List.mem_cons_of_mem _ (h2 e he), List.mem_cons_of_mem _ h3⟩
    | set m w =>
      simp only [nextSet, Option.some.injEq, Prod.mk.injEq] at h
      obtain ⟨rfl, rfl, rfl⟩ := h
      exact ⟨rfl, fun e he => List.mem_cons_of_mem _ he, by simp⟩

/-- A list without a next `Set` has none at all. -/
theorem nextSet_none {E : List Event} (h : nextSet E = none) : setsOf E = [] := by
  induction E with
  | nil => rfl
  | cons e F ih =>
    cases e with
    | wait t => simpa [setsOf] using ih (by simpa [nextSet] using h)
    | set m w => simp [nextSet] at h

/-- Every gap is at least one cycle (R250). -/
theorem one_le_minGap (E : List Event) : 1 ≤ minGap E := Nat.le_max_left _ _

end Sys2Proof.Machine
end

