-- ==== Sys2Proof/Laws/Exec.lean ====
section
/-! SUPPORT. What executing an instruction can do: a command is rejected, encodes, or issues a list; a frame changes what is
known of the chip. No instruction stops the machine. -/

namespace Sys2Proof.Machine

/-! ### Every command is an offer, every frame a write -/

theorem exec_init (s : State) :
    exec .init s = offer s [(!s.initDone, .reinit)] fun t => t.issue .init (initEvents t.cfg) := rfl

theorem exec_selectChannel (ch : Byte) (s : State) :
    exec (.selectChannel ch) s = offer s [(s.initDone, .notInit), (channelOk ch, .badChannel)]
      fun t => t.issue .selectChannel (sel t.cfg ch) := rfl

theorem exec_latchUpdate (s : State) :
    exec .latchUpdate s = offer s [(s.initDone, .notInit)] fun t => t.issue .latchUpdate (upd t.cfg) := rfl

theorem exec_writeReg (s : State) :
    exec .writeReg s = offer s
      [(s.initDone, .notInit), (addressOk (writeRegAddr s.args), .badAddress),
       (lengthOk (writeRegAddr s.args) (writeRegLen s.args), .badLength)]
      fun t => t.issue .writeReg (frame t.cfg (writeRegAddr t.args) (writeRegPayload t.args)) := rfl

theorem exec_cfgFixedTone (ch : Byte) (s : State) :
    exec (.cfgFixedTone ch) s = offer s (configChecks s ch [s.args.a0])
      fun t => t.issue .cfgFixedTone (fixedToneEvents t.cfg ch t.args) := rfl

theorem exec_cfgFreqSweep (ch : Byte) (s : State) :
    exec (.cfgFreqSweep ch) s = offer s (configChecks s ch [s.args.a0, s.args.a1, s.args.a2, s.args.a3])
      fun t => t.issue .cfgFreqSweep (freqSweepEvents t.cfg ch t.args) := rfl

theorem exec_cfgPhaseSweep (ch : Byte) (s : State) :
    exec (.cfgPhaseSweep ch) s = offer s (configChecks s ch [s.args.a0])
      fun t => t.issue .cfgPhaseSweep (phaseSweepEvents t.cfg ch t.args (Config.freeShadow t.draws)) := rfl

theorem exec_cfgAmpSweep (ch : Byte) (s : State) :
    exec (.cfgAmpSweep ch) s = offer s (configChecks s ch [s.args.a0])
      fun t => t.issue .cfgAmpSweep (ampSweepEvents t.cfg ch t.args (Config.freeShadow t.draws)) := rfl

theorem exec_encFreq (s : State) :
    exec .encFreq s = offer s [(ftwValid s.cfg.fSysclk s.args.a0, .freqRange)]
      fun t => { t with result := BitVec.ofNat 32 (ftw s.cfg.fSysclk s.args.a0) } := rfl

theorem exec_encPhase (s : State) :
    exec .encPhase s = offer s [] fun t => { t with result := BitVec.ofNat 32 (pw s.args.a0) } := rfl

theorem exec_encAmp (s : State) :
    exec .encAmp s = offer s []
      fun t => { t with result := BitVec.ofNat 32 (ofBytes (acrBytes s.args.a0 (ampBase s.args))) } := rfl

theorem exec_encAmpSweep (s : State) :
    exec .encAmpSweep s = offer s [] fun t => { t with result := BitVec.ofNat 32 (asw s.args.a0) } := rfl

theorem exec_encPhaseSweep (s : State) :
    exec .encPhaseSweep s = offer s [] fun t => { t with result := BitVec.ofNat 32 (psw s.args.a0) } := rfl

theorem exec_frCsr (p : List Byte) (s : State) :
    exec (.frCsr p) s = .next (s.onWrite .csr p fun t => t.writeCsr p) := rfl

/-- The frame of any register but `CSR` stages its payload (R69). -/
theorem exec_frame (r : ChipReg) (h : r ≠ .csr) (p : List Byte) (s : State) :
    exec (r.frame p) s = .next (s.onWrite r p fun t => t.stage r p) := by
  cases r <;> first | rfl | exact absurd rfl h

/-- A command is an offer under some checks and with some effect. -/
theorem exec_command_offer (i : Instr) (s : State) (hi : i.isCommand = true) :
    ∃ checks,
      (i.isEncode = true ∧ ∃ v, exec i s = offer s checks fun t => { t with result := v }) ∨
      (i.isEncode = false ∧ ∃ (op : Opcode) (E : State → List Event), exec i s = offer s checks fun t => t.issue op (E t)) := by
  cases i
  case init => exact ⟨_, .inr ⟨rfl, _, _, exec_init s⟩⟩
  case selectChannel ch => exact ⟨_, .inr ⟨rfl, _, _, exec_selectChannel ch s⟩⟩
  case latchUpdate => exact ⟨_, .inr ⟨rfl, _, _, exec_latchUpdate s⟩⟩
  case writeReg => exact ⟨_, .inr ⟨rfl, _, _, exec_writeReg s⟩⟩
  case cfgFixedTone ch => exact ⟨_, .inr ⟨rfl, _, _, exec_cfgFixedTone ch s⟩⟩
  case cfgFreqSweep ch => exact ⟨_, .inr ⟨rfl, _, _, exec_cfgFreqSweep ch s⟩⟩
  case cfgPhaseSweep ch => exact ⟨_, .inr ⟨rfl, _, _, exec_cfgPhaseSweep ch s⟩⟩
  case cfgAmpSweep ch => exact ⟨_, .inr ⟨rfl, _, _, exec_cfgAmpSweep ch s⟩⟩
  case encFreq => exact ⟨_, .inl ⟨rfl, _, exec_encFreq s⟩⟩
  case encPhase => exact ⟨_, .inl ⟨rfl, _, exec_encPhase s⟩⟩
  case encAmp => exact ⟨_, .inl ⟨rfl, _, exec_encAmp s⟩⟩
  case encAmpSweep => exact ⟨_, .inl ⟨rfl, _, exec_encAmpSweep s⟩⟩
  case encPhaseSweep => exact ⟨_, .inl ⟨rfl, _, exec_encPhaseSweep s⟩⟩
  all_goals exact absurd hi (by simp [Instr.isCommand])

/-- What is no command is the frame of a register. -/
theorem exists_frame {i : Instr} (hi : i.isCommand = false) : ∃ r p, i = ChipReg.frame r p := by
  cases i
  case frCsr p => exact ⟨.csr, p, rfl⟩
  case frFr1 p => exact ⟨.fr1, p, rfl⟩
  case frFr2 p => exact ⟨.fr2, p, rfl⟩
  case frCfr p => exact ⟨.cfr, p, rfl⟩
  case frCftw p => exact ⟨.cftw, p, rfl⟩
  case frCpow p => exact ⟨.cpow, p, rfl⟩
  case frAcr p => exact ⟨.acr, p, rfl⟩
  case frLsrr p => exact ⟨.lsrr, p, rfl⟩
  case frRdw p => exact ⟨.rdw, p, rfl⟩
  case frFdw p => exact ⟨.fdw, p, rfl⟩
  case frCw1 p => exact ⟨.cw1, p, rfl⟩
  all_goals exact absurd hi (by simp [Instr.isCommand])

/-! ### What an instruction can do -/

/-- A command answers a next state: rejected, `RESULT` written, or an event list issued (R211). -/
theorem exec_command_cases {i : Instr} {s t : State} (hi : i.isCommand = true) (h : exec i s = .next t) :
    (∃ e, t = s.reject e) ∨
    (s.execState.isRunning = false ∧ i.isEncode = true ∧ ∃ v, t = { s with errCode := errNone, result := v }) ∨
    (s.execState.isRunning = false ∧ i.isEncode = false ∧
      ∃ op E, t = ({ s with errCode := errNone } : State).issue op E) := by
  obtain ⟨checks, ⟨he, v, hv⟩ | ⟨he, op, E, hE⟩⟩ := exec_command_offer i s hi
  · rw [hv] at h
    rcases offer_cases h with ⟨-, rfl⟩ | ⟨-, e, -, rfl⟩ | ⟨hr, -, rfl⟩
    · exact .inl ⟨_, rfl⟩
    · exact .inl ⟨_, rfl⟩
    · exact .inr (.inl ⟨hr, he, v, rfl⟩)
  · rw [hE] at h
    rcases offer_cases h with ⟨-, rfl⟩ | ⟨-, e, -, rfl⟩ | ⟨hr, -, rfl⟩
    · exact .inl ⟨_, rfl⟩
    · exact .inl ⟨_, rfl⟩
    · exact .inr (.inr ⟨hr, he, op, _, rfl⟩)

/-- Every instruction answers a next state. -/
theorem exec_next (i : Instr) (s : State) : ∃ t, exec i s = .next t := by
  cases hi : i.isCommand with
  | true =>
    obtain ⟨checks, ⟨-, v, hv⟩ | ⟨-, op, E, hE⟩⟩ := exec_command_offer i s hi
    · exact hv ▸ offer_next ..
    · exact hE ▸ offer_next ..
  | false =>
    obtain ⟨r, p, rfl⟩ := exists_frame hi
    by_cases hr : r = .csr
    · subst hr; exact ⟨_, rfl⟩
    · exact ⟨_, exec_frame r hr p s⟩

/-- A frame leaves the block as it is (R69, R26). -/
theorem exec_frame_sameBlock {i : Instr} {s t : State} (hi : i.isCommand = false) (h : exec i s = .next t) :
    SameBlock s t := by
  obtain ⟨r, p, rfl⟩ := exists_frame hi
  by_cases hr : r = .csr
  · subst hr
    obtain rfl : s.onWrite .csr p (fun t => t.writeCsr p) = t := by
      simpa only [ChipReg.frame, exec_frCsr, Host.Outcome.next.injEq] using h
    exact .onWrite (.writeCsr ..)
  · obtain rfl : s.onWrite r p (fun t => t.stage r p) = t := by
      simpa only [exec_frame r hr, Host.Outcome.next.injEq] using h
    exact .onWrite (.stage ..)

/-- What a decoded frame is: the frame of the register at its address, of that register's width (R87). -/
theorem decodeFrame_ok {bytes : List Byte} {i : Instr} (h : decodeFrame bytes = .ok i) :
    ∃ a p r, bytes = a :: p ∧ ChipReg.ofAddr? a = some r ∧ p.length = r.width ∧ i = r.frame p := by
  cases bytes with
  | nil => simp [decodeFrame] at h
  | cons a p =>
    cases hr : ChipReg.ofAddr? a with
    | none => simp [decodeFrame, hr] at h
    | some r =>
      by_cases hp : p.length = r.width
      · exact ⟨a, p, r, rfl, hr, hp, by simpa [decodeFrame, hr, hp] using h.symm⟩
      · simp [decodeFrame, hr, hp] at h

theorem ChipReg.frame_isCommand (r : ChipReg) (p : List Byte) : (r.frame p).isCommand = false := by
  cases r <;> rfl

theorem bufFrame_isCommand {buf : List Bool} {i : Instr} (h : bufFrame buf = some i) : i.isCommand = false := by
  unfold bufFrame at h
  split at h
  · rename_i j hj
    obtain ⟨a, p, r, -, -, -, rfl⟩ := decodeFrame_ok hj
    obtain rfl : r.frame p = i := by simpa using h
    exact ChipReg.frame_isCommand r p
  · simp at h

end Sys2Proof.Machine
end

