-- ==== Sys2Proof/Laws/Step.lean ====
section
/-! SUPPORT. What the receiver, the block's part and the host's part of a cycle can do, and what a step can do. -/

namespace Sys2Proof.Machine

/-! ### The receiver -/

theorem SameBlock.shiftIn (s : State) : SameBlock s s.shiftIn.1 := by
  unfold State.shiftIn
  dsimp only
  split
  · rfl
  · split
    · rfl
    · split
      · rfl
      · split <;> rfl

theorem SameBlock.endFrame (s : State) : SameBlock s s.endFrame := by
  unfold State.endFrame; split <;> rfl

/-- Receiving changes only what is known of the chip. -/
theorem SameBlock.receive (s : State) (old : Lines) : SameBlock s (s.receive old).1 := by
  unfold State.receive
  split
  · rfl
  · split
    · rfl
    · split
      · rfl
      · split
        · rfl
        · split
          · exact .endFrame s
          · split
            · exact .shiftIn s
            · rfl

theorem shiftIn_instr {s : State} {i : Instr} (h : s.shiftIn.2 = some i) : i.isCommand = false := by
  unfold State.shiftIn at h
  dsimp only at h
  split at h
  · simp at h
  · split at h
    · simp at h
    · split at h
      · simp at h
      · split at h
        · exact bufFrame_isCommand h
        · simp at h

/-- What the receiver hands on is a frame. -/
theorem receive_instr {s : State} {old : Lines} {i : Instr} (h : (s.receive old).2 = some i) :
    i.isCommand = false := by
  unfold State.receive at h
  split at h
  · simp at h
  · split at h
    · simp at h
    · split at h
      · simp at h
      · split at h
        · simp at h
        · split at h
          · simp at h
          · split at h
            · exact shiftIn_instr h
            · simp at h

/-! ### The block's part -/

/-- The block's part of a cycle counts down, completes, or emits the next `Set` (R214, R250). -/
theorem blockPhase_cases (s : State) :
    (s.execState = .idle ∧ s.blockPhase = (s, none)) ∨
    (∃ op E k, s.execState = .running op E (k + 1) ∧
      s.blockPhase = ({ s with execState := .running op E k }, none)) ∨
    (∃ op E, s.execState = .running op E 0 ∧ nextSet E = none ∧ s.blockPhase = (s.complete op, none)) ∨
    (∃ op E l v rest, s.execState = .running op E 0 ∧ nextSet E = some (l, v, rest) ∧
      s.blockPhase = ((s.emit l v).running op rest).receive s.lines) := by
  unfold State.blockPhase
  split
  · exact .inl ⟨‹_›, rfl⟩
  · exact .inr (.inl ⟨_, _, _, ‹_›, rfl⟩)
  · split
    · exact .inr (.inr (.inl ⟨_, _, ‹_›, ‹_›, rfl⟩))
    · exact .inr (.inr (.inr ⟨_, _, _, _, _, ‹_›, ‹_›, rfl⟩))

/-- The block's part always answers a next state, and it differs from what the cases of `blockPhase_cases` say at most in
what is known of the chip. -/
theorem stepBlock_cases (s : State) :
    ∃ t, stepBlock s = .next t ∧
      ((s.execState = .idle ∧ t = s) ∨
       (∃ op E k, s.execState = .running op E (k + 1) ∧ t = { s with execState := .running op E k }) ∨
       (∃ op E, s.execState = .running op E 0 ∧ nextSet E = none ∧ t = s.complete op) ∨
       (∃ op E l v rest, s.execState = .running op E 0 ∧ nextSet E = some (l, v, rest) ∧
         SameBlock ((s.emit l v).running op rest) t)) := by
  unfold stepBlock
  rcases blockPhase_cases s with ⟨h, hb⟩ | ⟨op, E, k, h, hb⟩ | ⟨op, E, h, hn, hb⟩ | ⟨op, E, l, v, rest, h, hn, hb⟩
  · exact ⟨s, by rw [hb]; rfl, .inl ⟨h, rfl⟩⟩
  · exact ⟨_, by rw [hb]; rfl, .inr (.inl ⟨op, E, k, h, rfl⟩)⟩
  · exact ⟨_, by rw [hb]; rfl, .inr (.inr (.inl ⟨op, E, h, hn, rfl⟩))⟩
  · rw [hb]
    cases hi : (((s.emit l v).running op rest).receive s.lines).2 with
    | none => exact ⟨_, rfl, .inr (.inr (.inr ⟨op, E, l, v, rest, h, hn, .receive ..⟩))⟩
    | some i =>
      obtain ⟨t, ht⟩ := exec_next i (((s.emit l v).running op rest).receive s.lines).1
      exact ⟨t, ht, .inr (.inr (.inr ⟨op, E, l, v, rest, h, hn,
        (SameBlock.receive _ _).trans (exec_frame_sameBlock (receive_instr hi) ht)⟩))⟩

/-! ### The host's part -/

/-- What the host's part leaves of a state before an instruction runs: the cycle, the program, the read data, what is known
of a chip in reset, and the register the host wrote. -/
theorem beginCycle_sameBlock (s : State) :
    SameBlock { s with cycle := s.cycle + 1, host := s.host.tail, readData := none } s.beginCycle := by
  unfold State.beginCycle
  dsimp only
  split <;> rfl

theorem onAccess_next {α : Type} {offset width : Nat} {k : Host.Outcome α Fault Refusal} {a : α}
    (h : onAccess offset width k = .next a) : offset < 64 ∧ width = 4 ∧ offset % 4 = 0 ∧ k = .next a := by
  unfold onAccess at h
  split at h
  · simp at h
  · split at h
    · rename_i h1 h2
      exact ⟨by omega, h2.1, h2.2, h⟩
    · simp at h

theorem onAccess_ok {α : Type} {offset : Nat} (h : offset < 64) (h4 : offset % 4 = 0)
    (k : Host.Outcome α Fault Refusal) : onAccess offset 4 k = k := by
  unfold onAccess
  rw [if_neg (by omega), if_pos ⟨rfl, h4⟩]

/-- The host's part of a cycle: reset, nothing for the block, a read of some kind, a register write, a command, or a
reserved command word. -/
theorem hostPhase_cases {s t : State} {i : Option Instr} (h : s.hostPhase = .next (t, i)) :
    (s.inResetCycle = true ∧ t = s.resetCycle ∧ i = none) ∨
    (s.inResetCycle = false ∧ i = none ∧
      ∃ d H, t = { s.beginCycle with readData := d, host := H }) ∨
    (s.inResetCycle = false ∧ i = none ∧
      ∃ off v, s.hostOp = .write off 4 v ∧ off ≠ cmdOffset ∧ t = s.beginCycle.writeReg off v) ∨
    (s.inResetCycle = false ∧ ∃ v j, s.hostOp = .write cmdOffset 4 v ∧ decodeCommand v = .ok j ∧ i = some j ∧
      t = s.beginCycle) ∨
    (s.inResetCycle = false ∧ i = none ∧ ∃ v e, s.hostOp = .write cmdOffset 4 v ∧ decodeCommand v = .error e ∧
      t = s.beginCycle.rejectReserved) := by
  unfold State.hostPhase at h
  split at h
  · rename_i hr
    simp only [Host.Outcome.next.injEq, Prod.mk.injEq] at h
    exact .inl ⟨hr, h.1.symm, h.2.symm⟩
  · rename_i hr
    have hr' : s.inResetCycle = false := by simpa using hr
    dsimp only at h
    split at h
    · simp only [Host.Outcome.next.injEq, Prod.mk.injEq] at h
      exact .inr (.inl ⟨hr', h.2.symm, _, _, h.1.symm⟩)
    · rename_i hop
      exact absurd (by simp [State.inResetCycle, hop]) hr
    · obtain ⟨-, -, -, h⟩ := onAccess_next h
      simp only [Host.Outcome.next.injEq, Prod.mk.injEq] at h
      exact .inr (.inl ⟨hr', h.2.symm, _, _, h.1.symm⟩)
    · rename_i off width v hop
      obtain ⟨-, rfl, -, h'⟩ := onAccess_next h
      clear h
      by_cases hoff : off = cmdOffset
      · subst hoff
        rw [if_pos rfl] at h'
        cases hd : decodeCommand v with
        | ok j =>
          simp only [hd, Host.Outcome.next.injEq, Prod.mk.injEq] at h'
          exact .inr (.inr (.inr (.inl ⟨hr', v, j, hop, hd, h'.2.symm, h'.1.symm⟩)))
        | error e =>
          simp only [hd, Host.Outcome.next.injEq, Prod.mk.injEq] at h'
          exact .inr (.inr (.inr (.inr ⟨hr', h'.2.symm, v, e, hop, hd, h'.1.symm⟩)))
      · rw [if_neg hoff] at h'
        simp only [Host.Outcome.next.injEq, Prod.mk.injEq] at h'
        exact .inr (.inr (.inl ⟨hr', h'.2.symm, off, v, hop, hoff, h'.1.symm⟩))
    · simp only [Host.Outcome.next.injEq, Prod.mk.injEq] at h
      exact .inr (.inl ⟨hr', h.2.symm, _, _, h.1.symm⟩)
    · simp only [Host.Outcome.next.injEq, Prod.mk.injEq] at h
      exact .inr (.inl ⟨hr', h.2.symm, _, _, h.1.symm⟩)

/-- A step is its host part, the instruction that part yields, and the block's part if a command was running. -/
theorem step_next {s t : State} (h : step s = .next t) :
    ∃ u i w, s.hostPhase = .next (u, i) ∧ runFetched i u = .next w ∧
      (if s.execState.isRunning then stepBlock w else .next w) = .next t := by
  unfold step at h
  cases hu : s.hostPhase with
  | fault f => rw [hu] at h; cases h
  | refused r => rw [hu] at h; cases h
  | next a =>
    obtain ⟨u, i⟩ := a
    rw [hu] at h
    cases hw : runFetched i u with
    | fault f => simp only [hw] at h; cases h
    | refused r => simp only [hw] at h; cases h
    | next w =>
      simp only [hw] at h
      exact ⟨u, i, w, rfl, hw, h⟩

/-- The command a decoded word stands for is a command. -/
theorem decodeCommand_isCommand {v : Word} {i : Instr} (h : decodeCommand v = .ok i) : i.isCommand = true := by
  unfold decodeCommand at h
  split at h
  · rename_i op _
    obtain rfl : op.command (channelField v) = i := by simpa using h
    cases op <;> rfl
  · simp at h

end Sys2Proof.Machine
end

