-- ==== Sys2Proof/Laws/Cycle.lean ====
section
/-! SUPPORT. The commonest shapes of a cycle: a chip out of reset, a host that makes no access, a cycle of block reset. -/

namespace Sys2Proof.Machine

/-- Out of chip reset a new cycle touches nothing but the clock and the host's side. -/
theorem beginCycle_eq {s : State} (h : s.chipInReset = false) :
    s.beginCycle = { s with cycle := s.cycle + 1, host := s.host.tail, readData := none } := by
  unfold State.beginCycle
  exact if_neg (by simpa [State.chipInReset] using h)

theorem inResetCycle_false {s : State} (hr : s.rstN = true) (hh : s.hostOp ≠ .blockReset) :
    s.inResetCycle = false := by
  simp [State.inResetCycle, hr, hh]

/-- A cycle without an access is the block's part alone. -/
theorem step_no_access {s : State} (hr : s.rstN = true) (hh : s.hostOp = .idle) :
    step s = if s.execState.isRunning then stepBlock s.beginCycle else .next s.beginCycle := by
  unfold step State.hostPhase
  rw [inResetCycle_false hr (by simp [hh]), hh]
  simp [runFetched]

/-- A quiet host's part of a cycle leaves a quiet program and touches nothing of the block; a poll stays while `BUSY` is 1. -/
theorem hostPhase_quiet {s : State} (hr : s.rstN = true) (hq : ∀ a ∈ s.host, a.quiet = true) :
    ∃ d H, s.hostPhase = .next ({ s.beginCycle with readData := d, host := H }, none)
      ∧ (∀ a ∈ H, a.quiet = true)
      ∧ (s.hostOp = .waitIdle → s.busy = true → H = s.host) := by
  have tail : s.beginCycle.host = s.host.tail := by
    unfold State.beginCycle
    dsimp only
    split <;> rfl
  have hqt : ∀ a ∈ s.beginCycle.host, a.quiet = true := fun a ha => hq a (List.mem_of_mem_tail (tail ▸ ha))
  have hop : s.hostOp.quiet = true := by
    unfold State.hostOp
    cases h : s.host with
    | nil => rfl
    | cons a rest => exact hq a (by simp [h])
  have hn : s.inResetCycle = false :=
    inResetCycle_false hr fun h => by rw [h] at hop; exact absurd hop (by decide)
  unfold State.hostPhase
  rw [if_neg (by simp [hn])]
  cases h : s.hostOp with
  | idle => exact ⟨_, _, rfl, hqt, by simp⟩
  | read offset width =>
    rw [h] at hop
    simp only [HostOp.quiet, Bool.and_eq_true, decide_eq_true_eq, beq_iff_eq] at hop
    obtain ⟨⟨h1, h2⟩, rfl⟩ := hop
    exact ⟨_, _, onAccess_ok h1 h2 _, hqt, by simp⟩
  | write offset width v => rw [h] at hop; exact absurd hop (by simp [HostOp.quiet])
  | blockReset => rw [h] at hop; exact absurd hop (by decide)
  | waitIdle =>
    obtain ⟨rest, hrest⟩ : ∃ rest, s.host = .waitIdle :: rest := by
      unfold State.hostOp at h
      cases hh : s.host with
      | nil => rw [hh] at h; cases h
      | cons a rest => rw [hh] at h; exact ⟨rest, by rw [show a = .waitIdle from h]⟩
    refine ⟨_, _, rfl, fun a ha => ?_, fun _ hb => ?_⟩
    · split at ha
      · rcases List.mem_cons.mp ha with rfl | ha
        · rfl
        · exact hqt a ha
      · exact hqt a ha
    · have : (s.readReg statusOffset).getLsbD 0 = true := by
        change (statusWord s).getLsbD 0 = true
        rw [statusWord, BitVec.getLsbD_append]
        simp [hb]
      rw [if_pos this, tail, hrest]
      rfl
  | expectOk =>
    refine ⟨_, _, rfl, fun a ha => ?_, by simp⟩
    split at ha
    · exact hqt a ha
    · simp at ha

/-- A cycle in which block reset is asserted or released (R240). -/
theorem step_reset {s : State} (h : s.inResetCycle = true) :
    step s = .next s.resetCycle := by
  have idle : s.resetCycle.execState = .idle := by
    have := SameBlock.receive
      { s.beginCycle with
        args := Args.reset, busy := false, initDone := false, errSticky := false, errCode := 0, result := 0,
        lines := Lines.reset s.beginCycle.cfg, execState := .idle } s.beginCycle.lines
    exact congrArg State.execState this
  unfold step State.hostPhase
  rw [if_pos h]
  simp [runFetched, stepBlock, State.blockPhase, idle]

/-- Lines without an edge leave the receiver as it is. -/
theorem receive_no_edge {s : State} {old : Lines} (hr : s.chipInReset = false)
    (he : receiverEdge old s.lines = false) : s.receive old = (s, none) := by
  simp [State.receive, hr, he]

end Sys2Proof.Machine
end

