-- ==== Sys2Proof/Laws/PerInstr.lean ====
section
/-! SUPPORT. The one family of statements made per instruction: a well-formed instruction's code is as long as its row of
the opcode table says (30_encoding R81, R86). -/

namespace Sys2Proof.Laws.CodeLength

/-- The bits of a code: 32 of a command word (R81), 8 for each byte of a frame (R86). -/
def codeBits : Code → Nat
  | .command _ => 32
  | .frame bytes => 8 * bytes.length

/-- The bits the opcode table gives a row. -/
def rowBits : Instr → Nat
  | .init => 32
  | .selectChannel _ => 32
  | .latchUpdate => 32
  | .writeReg => 32
  | .cfgFixedTone _ => 32
  | .cfgFreqSweep _ => 32
  | .cfgPhaseSweep _ => 32
  | .cfgAmpSweep _ => 32
  | .encFreq => 32
  | .encPhase => 32
  | .encAmp => 32
  | .encAmpSweep => 32
  | .encPhaseSweep => 32
  | .frCsr _ => 16
  | .frFr1 _ => 32
  | .frFr2 _ => 32
  | .frCfr _ => 32
  | .frCftw _ => 40
  | .frCpow _ => 24
  | .frAcr _ => 32
  | .frLsrr _ => 24
  | .frRdw _ => 40
  | .frFdw _ => 40
  | .frCw1 _ => 40

/-- A well-formed instruction's code has the row's length. -/
def Statement (i : Instr) : Prop := WellFormed i → codeBits (encode i) = rowBits i

theorem init : Statement .init := fun _ => rfl

theorem selectChannel (ch : Byte) : Statement (.selectChannel ch) := fun _ => rfl

theorem latchUpdate : Statement .latchUpdate := fun _ => rfl

theorem writeReg : Statement .writeReg := fun _ => rfl

theorem cfgFixedTone (ch : Byte) : Statement (.cfgFixedTone ch) := fun _ => rfl

theorem cfgFreqSweep (ch : Byte) : Statement (.cfgFreqSweep ch) := fun _ => rfl

theorem cfgPhaseSweep (ch : Byte) : Statement (.cfgPhaseSweep ch) := fun _ => rfl

theorem cfgAmpSweep (ch : Byte) : Statement (.cfgAmpSweep ch) := fun _ => rfl

theorem encFreq : Statement .encFreq := fun _ => rfl

theorem encPhase : Statement .encPhase := fun _ => rfl

theorem encAmp : Statement .encAmp := fun _ => rfl

theorem encAmpSweep : Statement .encAmpSweep := fun _ => rfl

theorem encPhaseSweep : Statement .encPhaseSweep := fun _ => rfl

/-- A payload of `n` bytes after its address. -/
theorem codeBits_frame {a : Byte} {p : List Byte} {n : Nat} (h : p.length = n) :
    codeBits (.frame (a :: p)) = 8 * (n + 1) := by
  simp [codeBits, h]

theorem frCsr (payload : List Byte) : Statement (.frCsr payload) := fun h => codeBits_frame (beq_iff_eq.mp h)

theorem frFr1 (payload : List Byte) : Statement (.frFr1 payload) := fun h => codeBits_frame (beq_iff_eq.mp h)

theorem frFr2 (payload : List Byte) : Statement (.frFr2 payload) := fun h => codeBits_frame (beq_iff_eq.mp h)

theorem frCfr (payload : List Byte) : Statement (.frCfr payload) := fun h => codeBits_frame (beq_iff_eq.mp h)

theorem frCftw (payload : List Byte) : Statement (.frCftw payload) := fun h => codeBits_frame (beq_iff_eq.mp h)

theorem frCpow (payload : List Byte) : Statement (.frCpow payload) := fun h => codeBits_frame (beq_iff_eq.mp h)

theorem frAcr (payload : List Byte) : Statement (.frAcr payload) := fun h => codeBits_frame (beq_iff_eq.mp h)

theorem frLsrr (payload : List Byte) : Statement (.frLsrr payload) := fun h => codeBits_frame (beq_iff_eq.mp h)

theorem frRdw (payload : List Byte) : Statement (.frRdw payload) := fun h => codeBits_frame (beq_iff_eq.mp h)

theorem frFdw (payload : List Byte) : Statement (.frFdw payload) := fun h => codeBits_frame (beq_iff_eq.mp h)

theorem frCw1 (payload : List Byte) : Statement (.frCw1 payload) := fun h => codeBits_frame (beq_iff_eq.mp h)

end Sys2Proof.Laws.CodeLength
end

