-- ==== Sys2Proof/Laws/Wire.lean ====
section
/-! SUPPORT. Frames on the wire: the `Set`s of a frame and how a reader takes them down (41_transport R141-R144). -/

namespace Sys2Proof.Machine

/-- The three `Set`s of one bit (R141). -/
def bitSets (b : Bool) : List (Line × Bool) := [(.sclk, false), (.sdio0, b), (.sclk, true)]

theorem setsOf_bits (c : Cfg) (bits : List Bool) :
    setsOf (bits.flatMap (bitEvents c)) = bits.flatMap bitSets := by
  induction bits with
  | nil => rfl
  | cons b rest ih => simp [List.flatMap_cons, ih, bitEvents, bitSets, setsOf]

theorem setsOf_bytes (c : Cfg) (bytes : List Byte) :
    setsOf (bytes.flatMap (byteEvents c)) = (frameBits bytes).flatMap bitSets := by
  induction bytes with
  | nil => rfl
  | cons b rest ih => simp [List.flatMap_cons, ih, byteEvents, frameBits, setsOf_bits]

/-- The `Set`s of a frame: `CS_N` low, three for each bit, `CS_N` high. -/
theorem setsOf_frame (c : Cfg) (a : Byte) (p : List Byte) :
    setsOf (frame c a p) =
      (Line.csN, false) :: ((frameBits (a :: p)).flatMap bitSets ++ [(Line.csN, true)]) := by
  simp only [frame, setsOf_append, setsOf_bytes, frameTail, setsOf]
  simp

theorem frameBits_length (bytes : List Byte) : (frameBits bytes).length = 8 * bytes.length := by
  induction bytes with
  | nil => rfl
  | cons b rest ih => simp [frameBits, byteBits, List.flatMap_cons] at *; omega

/-- A reader with `CS_N` low takes down one bit for each clock. -/
theorem readWire_bits (bits : List Bool) (sclk data : Bool) (acc : List Bool) (rest : List (Line × Bool)) :
    readWire false sclk data acc (bits.flatMap bitSets ++ rest) =
      readWire false (if bits = [] then sclk else true) (bits.getLastD data) (acc ++ bits) rest := by
  induction bits generalizing sclk data acc with
  | nil => simp
  | cons b bits ih =>
    simp only [List.flatMap_cons, bitSets, List.cons_append, List.nil_append, readWire]
    simp [ih]
    cases bits <;> simp [List.getLast?_eq_getLast_of_ne_nil]

/-- A reader takes a whole frame down as one bit string, and then reads on from `CS_N` and `SCLK` high. -/
theorem readWire_frame (c : Cfg) (a : Byte) (p : List Byte) (sclk data : Bool) (acc : List Bool)
    (rest : List (Line × Bool)) :
    ∃ d, readWire true sclk data acc (setsOf (frame c a p) ++ rest) =
      frameBits (a :: p) :: readWire true true d [] rest := by
  refine ⟨(frameBits (a :: p)).getLastD data, ?_⟩
  rw [setsOf_frame]
  simp only [List.cons_append, readWire, Bool.not_false, Bool.and_self, if_true, List.append_assoc]
  rw [readWire_bits]
  simp [readWire, frameBits, byteBits]

/-- The update pulse is no frame. -/
theorem readWire_upd (c : Cfg) (sclk data : Bool) (acc : List Bool) :
    readWire true sclk data acc (setsOf (upd c)) = [] := by
  simp [upd, setsOf, readWire]

end Sys2Proof.Machine
end

