-- ==== Sys2Proof/Tests/Slice0.lean ====
section
/-! SUPPORT. Tests, each about one decoding or one step, with expected results taken from spec/95_test_vectors.md or written
out from the encodings of spec/30_encoding.md; and for every statement with hypotheses a witness that meets them. -/

namespace Sys2Proof.Tests

open Sys2Proof.Machine Sys2Proof.Claims

/-! ### A small machine -/

/-- A configuration with made-up values for the OPEN parameters. -/
def cfg : Cfg where
  fSysclk := 500000000
  fr1Value := 0xA1B2C3
  cfrFixed := 0x000301
  cfrFsweep := 0x804302
  cfrPsweep := 0xC04303
  cfrAsweep := 0x404304
  srrFsweep := 0x0102
  srrPsweep := 0x0304
  srrAsweep := 0x0506
  acrBaseFixed := 0x0010
  acrBaseFsweep := 0x1210
  acrBasePsweep := 0x0010
  acrBaseAsweep := 0x0018
  shadowEndPolicy := .intended
  resetActiveLevel := false
  channelScoped := Config.defaultScoped
  tCsSetup := 2
  tSclkLow := 1
  tSclkHigh := 1
  tCsHold := 2
  tCsIdle := 3
  tUpdPre := 1
  tUpdHigh := 2
  tRst1 := 4
  tRst2 := 4
  tRst3 := 5
  tRst4 := 6
  hostBase := 0x40000000

def bank : RegBank := ⟨0, 0, 0, 0, 0, 0, 0, 0, 0, 0⟩

/-- A chip with channel 1 selected. -/
def chip : Chip where
  csr := 0x20
  staged := Vector.replicate 4 bank
  active := Vector.replicate 4 bank
  stagedG := bank
  activeG := bank
  inFrame := false
  buf := []

/-- The block after reset, with a known chip. -/
def fresh : State := { State.resetWith cfg with chip := chip }

/-- The block after `INIT`. -/
def ready : State := { fresh with initDone := true }

/-- `ready` with operands. -/
def args (a0 a1 a2 a3 a4 a5 : Word) : State := { ready with args := ⟨a0, a1, a2, a3, a4, a5⟩ }

/-- `ready` in the middle of `WRITE_REG`, with a list still to emit. -/
def busyWith (E : List Event) (k : Nat) : State := { ready with busy := true, execState := .running .writeReg E k }

/-- What a check says of a next state; false of a stop. -/
def after (o : Host.Outcome State Fault Refusal) (check : State → Bool) : Bool :=
  match o with
  | .next s => check s
  | .fault _ => false
  | .refused _ => false

/-- The bytes of the frames a state is about to send. -/
def sent (s : State) : List (List Byte) :=
  (framesSent true false s.execState.events).map fun bits => bitsToBytes (bits.length / 8) bits

/-- `STATUS` after an instruction. -/
def statusIs (o : Host.Outcome State Fault Refusal) (v : Word) : Bool := after o fun s => statusWord s == v

/-! ### Well-formedness: a payload of the wrong width is refused -/

theorem test_wellFormed_frCsr : WellFormed (.frCsr [0xA0]) ∧ ¬ WellFormed (.frCsr []) ∧ ¬ WellFormed (.frCsr [0xA0, 0xA1]) := by
  decide

theorem test_wellFormed_frFr1 : WellFormed (.frFr1 [0xA0, 0xA1, 0xA2]) ∧ ¬ WellFormed (.frFr1 [0xA0, 0xA1]) ∧ ¬ WellFormed (.frFr1 [0xA0, 0xA1, 0xA2, 0xA3]) := by
  decide

theorem test_wellFormed_frFr2 : WellFormed (.frFr2 [0xA0, 0xA1, 0xA2]) ∧ ¬ WellFormed (.frFr2 [0xA0, 0xA1]) ∧ ¬ WellFormed (.frFr2 [0xA0, 0xA1, 0xA2, 0xA3]) := by
  decide

theorem test_wellFormed_frCfr : WellFormed (.frCfr [0xA0, 0xA1, 0xA2]) ∧ ¬ WellFormed (.frCfr [0xA0, 0xA1]) ∧ ¬ WellFormed (.frCfr [0xA0, 0xA1, 0xA2, 0xA3]) := by
  decide

theorem test_wellFormed_frCftw : WellFormed (.frCftw [0xA0, 0xA1, 0xA2, 0xA3]) ∧ ¬ WellFormed (.frCftw [0xA0, 0xA1, 0xA2]) ∧ ¬ WellFormed (.frCftw [0xA0, 0xA1, 0xA2, 0xA3, 0xA4]) := by
  decide

theorem test_wellFormed_frCpow : WellFormed (.frCpow [0xA0, 0xA1]) ∧ ¬ WellFormed (.frCpow [0xA0]) ∧ ¬ WellFormed (.frCpow [0xA0, 0xA1, 0xA2]) := by
  decide

theorem test_wellFormed_frAcr : WellFormed (.frAcr [0xA0, 0xA1, 0xA2]) ∧ ¬ WellFormed (.frAcr [0xA0, 0xA1]) ∧ ¬ WellFormed (.frAcr [0xA0, 0xA1, 0xA2, 0xA3]) := by
  decide

theorem test_wellFormed_frLsrr : WellFormed (.frLsrr [0xA0, 0xA1]) ∧ ¬ WellFormed (.frLsrr [0xA0]) ∧ ¬ WellFormed (.frLsrr [0xA0, 0xA1, 0xA2]) := by
  decide

theorem test_wellFormed_frRdw : WellFormed (.frRdw [0xA0, 0xA1, 0xA2, 0xA3]) ∧ ¬ WellFormed (.frRdw [0xA0, 0xA1, 0xA2]) ∧ ¬ WellFormed (.frRdw [0xA0, 0xA1, 0xA2, 0xA3, 0xA4]) := by
  decide

theorem test_wellFormed_frFdw : WellFormed (.frFdw [0xA0, 0xA1, 0xA2, 0xA3]) ∧ ¬ WellFormed (.frFdw [0xA0, 0xA1, 0xA2]) ∧ ¬ WellFormed (.frFdw [0xA0, 0xA1, 0xA2, 0xA3, 0xA4]) := by
  decide

theorem test_wellFormed_frCw1 : WellFormed (.frCw1 [0xA0, 0xA1, 0xA2, 0xA3]) ∧ ¬ WellFormed (.frCw1 [0xA0, 0xA1, 0xA2]) ∧ ¬ WellFormed (.frCw1 [0xA0, 0xA1, 0xA2, 0xA3, 0xA4]) := by
  decide

/-- A `CH` beyond 3 is no ill-formed command: it decodes and is rejected later (30_encoding R88). -/
theorem test_wellFormed_channel : WellFormed (.selectChannel 0xFF) := by decide

/-! ### Decoding: every row's word, written out from 30_encoding R81, R82, R86 -/

theorem test_decode_init :
    decodeCommand 0b00000000000000000000000000000001 = .ok .init := by decide

theorem test_decode_selectChannel :
    decodeCommand 0b00000000000000000000001100000010 = .ok (.selectChannel 0b00000011) := by decide

theorem test_decode_latchUpdate :
    decodeCommand 0b00000000000000000000000000000011 = .ok .latchUpdate := by decide

theorem test_decode_writeReg :
    decodeCommand 0b00000000000000000000000000000100 = .ok .writeReg := by decide

theorem test_decode_cfgFixedTone :
    decodeCommand 0b00000000000000000000000000000101 = .ok (.cfgFixedTone 0b00000000) := by decide

theorem test_decode_cfgFreqSweep :
    decodeCommand 0b00000000000000001000000100000110 = .ok (.cfgFreqSweep 0b10000001) := by decide

theorem test_decode_cfgPhaseSweep :
    decodeCommand 0b00000000000000000000001000000111 = .ok (.cfgPhaseSweep 0b00000010) := by decide

theorem test_decode_cfgAmpSweep :
    decodeCommand 0b00000000000000000000000100001000 = .ok (.cfgAmpSweep 0b00000001) := by decide

theorem test_decode_encFreq :
    decodeCommand 0b00000000000000000000000000001001 = .ok .encFreq := by decide

theorem test_decode_encPhase :
    decodeCommand 0b00000000000000000000000000001010 = .ok .encPhase := by decide

theorem test_decode_encAmp :
    decodeCommand 0b00000000000000000000000000001011 = .ok .encAmp := by decide

theorem test_decode_encAmpSweep :
    decodeCommand 0b00000000000000000000000000001100 = .ok .encAmpSweep := by decide

theorem test_decode_encPhaseSweep :
    decodeCommand 0b00000000000000000000000000001101 = .ok .encPhaseSweep := by decide

theorem test_decode_frCsr : decodeFrame [0b00000000, 0xC0] = .ok (.frCsr [0xC0]) := by decide

theorem test_decode_frFr1 : decodeFrame [0b00000001, 0xC0, 0xC1, 0xC2] = .ok (.frFr1 [0xC0, 0xC1, 0xC2]) := by decide

theorem test_decode_frFr2 : decodeFrame [0b00000010, 0xC0, 0xC1, 0xC2] = .ok (.frFr2 [0xC0, 0xC1, 0xC2]) := by decide

theorem test_decode_frCfr : decodeFrame [0b00000011, 0xC0, 0xC1, 0xC2] = .ok (.frCfr [0xC0, 0xC1, 0xC2]) := by decide

theorem test_decode_frCftw : decodeFrame [0b00000100, 0xC0, 0xC1, 0xC2, 0xC3] = .ok (.frCftw [0xC0, 0xC1, 0xC2, 0xC3]) := by decide

theorem test_decode_frCpow : decodeFrame [0b00000101, 0xC0, 0xC1] = .ok (.frCpow [0xC0, 0xC1]) := by decide

theorem test_decode_frAcr : decodeFrame [0b00000110, 0xC0, 0xC1, 0xC2] = .ok (.frAcr [0xC0, 0xC1, 0xC2]) := by decide

theorem test_decode_frLsrr : decodeFrame [0b00000111, 0xC0, 0xC1] = .ok (.frLsrr [0xC0, 0xC1]) := by decide

theorem test_decode_frRdw : decodeFrame [0b00001000, 0xC0, 0xC1, 0xC2, 0xC3] = .ok (.frRdw [0xC0, 0xC1, 0xC2, 0xC3]) := by decide

theorem test_decode_frFdw : decodeFrame [0b00001001, 0xC0, 0xC1, 0xC2, 0xC3] = .ok (.frFdw [0xC0, 0xC1, 0xC2, 0xC3]) := by decide

theorem test_decode_frCw1 : decodeFrame [0b00001010, 0xC0, 0xC1, 0xC2, 0xC3] = .ok (.frCw1 [0xC0, 0xC1, 0xC2, 0xC3]) := by decide

/-- 95_test_vectors 2.8: reserved opcodes and reserved bits. -/
theorem test_decode_reserved :
    (([0x00000000, 0x0000000E, 0x0000000F, 0x00000015, 0x00010005] : List Word).map decodeCommand) =
      List.replicate 5 (.error .reservedCommand) := by decide

/-- 30_encoding R87, R89: no address, an address off the map, a payload too short or too long. -/
theorem test_decode_badFrames :
    decodeFrame [] = .error .noAddress ∧ decodeFrame [0x0B, 0, 0, 0, 0] = .error .badAddress
      ∧ decodeFrame [0x05, 0x20] = .error .badLength ∧ decodeFrame [0x00, 0x10, 0x00] = .error .badLength := by decide

/-- The opcode table's numbering: a command word, and a frame whose first byte is bits 7:0. -/
theorem test_decode_table :
    decodeTableWord 32 0x00000402 = some (.selectChannel 4)
      ∧ decodeTableWord 40 0x3333333304 = some (.frCftw [0x33, 0x33, 0x33, 0x33])
      ∧ decodeTableWord 16 0x1000 = some (.frCsr [0x10]) := by decide

/-- R91: the channel goes to bits 15:8. -/
theorem test_encode_channel : encode (.cfgFreqSweep 1) = .command 0x00000106 := by decide

/-! ### The encoder commands (95_test_vectors 2.1 to 2.4) -/

theorem test_encFreq_scenarioA :
    after (exec .encFreq (args 100000000 0 0 0 0 0)) (fun s => s.result == 0x33333333) = true := by decide

/-- 2.1: the operand `F_SYSCLK` is out of range. -/
theorem test_encFreq_range : statusIs (exec .encFreq (args 500000000 0 0 0 0 0)) 0x86 = true := by decide

theorem test_encPhase_scenarioB :
    after (exec .encPhase (args 180 0 0 0 0 0)) (fun s => s.result == 0x2000) = true := by decide

/-- 2.2: the last row. -/
theorem test_encPhase_top :
    after (exec .encPhase (args 4294967295 0 0 0 0 0)) (fun s => s.result == 0x2D55) = true := by decide

theorem test_encAmp_scenarioC :
    after (exec .encAmp (args 1023 0x10 0 0 0 0)) (fun s => s.result == 0x13FF) = true := by decide

/-- 2.3: the baseline's bits 1:0 are ORed with the amplitude's top bits. -/
theorem test_encAmp_baseline :
    after (exec .encAmp (args 0x155 0xAB03 0 0 0 0)) (fun s => s.result == 0x00AB0355) = true := by decide

/-- 2.4. -/
theorem test_encAmpSweep :
    after (exec .encAmpSweep (args 341 0 0 0 0 0)) (fun s => s.result == 0x55400000) = true := by decide

/-- 2.2. -/
theorem test_encPhaseSweep :
    after (exec .encPhaseSweep (args 1000 0 0 0 0 0)) (fun s => s.result == 0xC71C0000) = true := by decide

/-- 2.1: the bytes of one frequency word. -/
theorem test_ftwBytes : ftwBytes 500000000 123456789 = [0x3F, 0x35, 0xBA, 0x6E] := by decide

/-! ### The line-driving commands (95_test_vectors 2.5 to 2.9) -/

/-- 2.6: 13 `Set`s, `DDS_RESET` last 1, 0, 1, 0, 1. -/
theorem test_init :
    after (exec .init fresh) (fun s =>
      (setsOf s.execState.events).length == 13
        && levelsOf .ddsReset s.execState.events == [true, false, true, false, true]) = true := by decide

/-- 2.8: after `INIT`. -/
theorem test_init_again : statusIs (exec .init ready) 0x46 = true := by decide

/-- 2.5: `SEL(3)`. -/
theorem test_selectChannel :
    after (exec (.selectChannel 3) ready) (fun s => sent s == [[0x00, 0x80]] && statusWord s == 0x03) = true := by decide

/-- Program P3. -/
theorem test_selectChannel_bad : statusIs (exec (.selectChannel 4) ready) 0x56 = true := by decide

/-- 2.6. -/
theorem test_latchUpdate :
    after (exec .latchUpdate ready) (fun s => setsOf s.execState.events ==
      [(.ioUpdate, false), (.ioUpdate, true), (.ioUpdate, false)]) = true := by decide

/-- 2.7: the upper halves of the operands are ignored. -/
theorem test_writeReg :
    after (exec .writeReg (args 0xABCD0205 0xDEAD2000 0 0 0 0)) (fun s => sent s == [[0x05, 0x20, 0x00]]) = true := by
  decide

/-- 2.7: the address is checked before the length. -/
theorem test_writeReg_rejected :
    statusIs (exec .writeReg (args 0x000000FF 0 0 0 0 0)) 0x66 = true
      ∧ statusIs (exec .writeReg (args 0x00000305 0 0 0 0 0)) 0x76 = true := by decide

/-- 2.9. -/
theorem test_cfgFixedTone :
    after (exec (.cfgFixedTone 0) (args 100000000 180 1023 0 0 0)) (fun s => sent s ==
      [[0x00, 0x10], [0x01, 0xA1, 0xB2, 0xC3], [0x03, 0x00, 0x03, 0x01], [0x06, 0x00, 0x13, 0xFF],
       [0x05, 0x20, 0x00], [0x04, 0x33, 0x33, 0x33, 0x33]]) = true := by decide +kernel

/-- 2.8: `NOT_INIT` before `BAD_CHANNEL`. -/
theorem test_cfgFixedTone_notInit : statusIs (exec (.cfgFixedTone 4) fresh) 0x34 = true := by decide

/-- 2.9. -/
theorem test_cfgFreqSweep :
    after (exec (.cfgFreqSweep 1) (args 1000000 10000000 1000 1000 0 512)) (fun s => sent s ==
      [[0x00, 0x20], [0x01, 0xA1, 0xB2, 0xC3], [0x03, 0x80, 0x43, 0x02], [0x04, 0x00, 0x83, 0x12, 0x6E],
       [0x0A, 0x05, 0x1E, 0xB8, 0x51], [0x08, 0x00, 0x00, 0x21, 0x8D], [0x09, 0x00, 0x00, 0x21, 0x8D],
       [0x07, 0x01, 0x02], [0x06, 0x12, 0x12, 0x00], [0x05, 0x00, 0x00]]) = true := by decide +kernel

/-- 2.8: the ramp-down frequency is out of range. -/
theorem test_cfgFreqSweep_range :
    statusIs (exec (.cfgFreqSweep 0) (args 1000000 10000000 1000 500000000 0 0)) 0x86 = true := by decide

/-- 2.9, under `INTENDED`. -/
theorem test_cfgPhaseSweep :
    after (exec (.cfgPhaseSweep 3) (args 10000000 0 180 1 1 1023)) (fun s => sent s ==
      [[0x00, 0x80], [0x01, 0xA1, 0xB2, 0xC3], [0x03, 0xC0, 0x43, 0x03], [0x04, 0x05, 0x1E, 0xB8, 0x51],
       [0x05, 0x00, 0x00], [0x0A, 0x80, 0x00, 0x00, 0x00], [0x08, 0x00, 0xB8, 0x00, 0x00],
       [0x09, 0x00, 0xB8, 0x00, 0x00], [0x07, 0x03, 0x04], [0x06, 0x00, 0x13, 0xFF]]) = true := by decide +kernel

/-- 2.9, under `INTENDED`. -/
theorem test_cfgAmpSweep :
    after (exec (.cfgAmpSweep 0) (args 1000000 90 0 1023 1 1)) (fun s => sent s ==
      [[0x00, 0x10], [0x01, 0xA1, 0xB2, 0xC3], [0x03, 0x40, 0x43, 0x04], [0x06, 0x00, 0x18, 0x00],
       [0x0A, 0xFF, 0xC0, 0x00, 0x00], [0x08, 0x00, 0x40, 0x00, 0x00], [0x09, 0x00, 0x40, 0x00, 0x00],
       [0x07, 0x05, 0x06], [0x05, 0x10, 0x00], [0x04, 0x00, 0x83, 0x12, 0x6E]]) = true := by decide +kernel

/-- 2.8: a command offered while one runs. -/
theorem test_busy : statusIs (exec .encFreq (busyWith (upd cfg) 0)) 0x27 = true := by decide

/-! ### Frames at the receiver (20_memory R69, R70, R71) -/

/-- R69: `CSR` acts at once. -/
theorem test_frCsr : after (exec (.frCsr [0x80]) ready) (fun s => s.chip.csr == 0x80) = true := by decide

/-- R257: low bits set, the wire has no reading. -/
theorem test_frCsr_lost : after (exec (.frCsr [0x1F]) ready) (fun s => s.chipLost) = true := by decide

/-- R69: `FR1` is global. -/
theorem test_frFr1 :
    after (exec (.frFr1 [0x12, 0x34, 0x56]) ready) (fun s =>
      s.chip.stagedG.fr1 == 0x123456 && s.chip.activeG.fr1 == 0) = true := by decide

theorem test_frFr2 :
    after (exec (.frFr2 [0x12, 0x34, 0x56]) ready) (fun s => s.chip.stagedG.fr2 == 0x123456) = true := by decide

theorem test_frCfr :
    after (exec (.frCfr [0x81, 0x23, 0x45]) ready) (fun s => s.chip.staged[1].cfr == 0x812345 && s.chip.staged[0].cfr == 0) = true := by
  decide

theorem test_frCftw :
    after (exec (.frCftw [0x81, 0x23, 0x45, 0x67]) ready) (fun s => s.chip.staged[1].cftw == 0x81234567 && s.chip.staged[0].cftw == 0) = true := by
  decide

theorem test_frCpow :
    after (exec (.frCpow [0x81, 0x23]) ready) (fun s => s.chip.staged[1].cpow == 0x8123 && s.chip.staged[0].cpow == 0) = true := by
  decide

theorem test_frAcr :
    after (exec (.frAcr [0x81, 0x23, 0x45]) ready) (fun s => s.chip.staged[1].acr == 0x812345 && s.chip.staged[0].acr == 0) = true := by
  decide

theorem test_frLsrr :
    after (exec (.frLsrr [0x81, 0x23]) ready) (fun s => s.chip.staged[1].lsrr == 0x8123 && s.chip.staged[0].lsrr == 0) = true := by
  decide

theorem test_frRdw :
    after (exec (.frRdw [0x81, 0x23, 0x45, 0x67]) ready) (fun s => s.chip.staged[1].rdw == 0x81234567 && s.chip.staged[0].rdw == 0) = true := by
  decide

theorem test_frFdw :
    after (exec (.frFdw [0x81, 0x23, 0x45, 0x67]) ready) (fun s => s.chip.staged[1].fdw == 0x81234567 && s.chip.staged[0].fdw == 0) = true := by
  decide

theorem test_frCw1 :
    after (exec (.frCw1 [0x81, 0x23, 0x45, 0x67]) ready) (fun s => s.chip.staged[1].cw1 == 0x81234567 && s.chip.staged[0].cw1 == 0) = true := by
  decide

/-! ### Steps -/

/-- The first instruction after reset, as the opcode table numbers it. -/
theorem test_step_fetch :
    after (step (State.reset.withFetchWord 32 0x00000409)) (fun s => s.result == 0 && s.errCode == 0) = true := by decide

/-- 2.8: a reserved word. -/
theorem test_step_reserved : statusIs (step (fresh.withFetchWord 32 0x00000015)) 0x14 = true := by decide

/-- A frame completed on the wire. -/
theorem test_step_frame :
    after (step (ready.withFetchWord 40 0x3333333304)) (fun s => s.chip.staged[1].cftw == 0x33333333) = true := by
  decide +kernel

/-- R216: a `CMD` write in the completion step. -/
theorem test_step_completion :
    after (step { busyWith [] 0 with host := [.write 0x00 4 0x00000003] })
      (fun s => statusWord s == 0x26 && s.execState == .idle) = true := by decide

/-- R70: the update edge. -/
theorem test_step_update :
    after (step { busyWith [.set .ioUpdate true] 0 with
        chip := { chip with stagedG := { bank with fr1 := 5 } } })
      (fun s => s.chip.activeG.fr1 == 5 && s.lines.ioUpdate) = true := by decide

/-- R241: block reset in the middle of a frame; the lines take their reset levels with no event. -/
theorem test_step_blockReset :
    after (step { busyWith [.set .sclk true] 0 with
        lines := { ready.lines with csN := false }, host := [.blockReset] })
      (fun s => statusWord s == 0 && s.lines.csN && s.trace == [] && s.execState == .idle) = true := by decide

/-- R91: `EXPECT_OK` ends the program on an error code, `WAIT_IDLE` polls again while busy. -/
theorem test_step_pseudo :
    after (step { ready with errCode := 5, host := [.expectOk, .idle] }) (fun s => s.host == []) = true
      ∧ after (step { busyWith [] 3 with host := [.waitIdle, .idle] }) (fun s => s.host == [.waitIdle, .idle]) = true := by
  decide

/-- R53, R51: a byte write, and a read past the window. -/
theorem test_step_stops :
    step { ready with host := [.write 0x04 1 7] } = .refused .hostPartialAccess
      ∧ step { ready with host := [.read 0x40 4] } = .fault .hostOutsideWindow := ⟨rfl, rfl⟩

/-- Program P1: the host accesses of its second line. -/
theorem test_expand :
    (ProgramLine.cfgFixedTone 0 100000000 180 1023).expand =
      [.write 0x04 4 0x05F5E100, .write 0x08 4 0x000000B4, .write 0x0C 4 0x000003FF, .write 0x00 4 0x00000005,
       .waitIdle] := by decide

/-- R91: `ARG0` of a raw write, its address in bits 7:0 and its length in bits 15:8. -/
theorem test_expand_writeReg :
    (ProgramLine.writeReg 0x04 4 0x010624DD).expand =
      [.write 0x04 4 0x00000404, .write 0x08 4 0x010624DD, .write 0x00 4 0x00000004, .waitIdle] := by decide

/-! ### Witnesses: states and operands that meet the hypotheses of each statement, at the edges of each clause -/

/-- `ready` with host operations to play. -/
def hosted (ops : List HostOp) : State := { ready with host := ops }

/-- A write of `v` to `CMD`. -/
def cmd (v : Word) : List HostOp := [.write 0x00 4 v]

/-- `ready` about to complete a frame on the wire: all bits but the last are in the buffer. -/
def lastBit (bytes : List Byte) : State :=
  { busyWith [.set .sclk true, .wait 1] 0 with
    lines := { ready.lines with csN := false, sdio0 := (frameBits bytes).getLastD false }
    chip := { chip with inFrame := true, buf := (frameBits bytes).dropLast } }

/-- A reserved `CMD` value, by each of its four reasons at its edges. -/
theorem witness_ReservedWordRejected :
    (hosted (cmd 0)).rstN = true ∧ (hosted (cmd 0)).execState = .idle
      ∧ (hosted (cmd 0)).host = .write 0x00 4 0 :: []
      ∧ ((0 : Word).extractLsb' 0 4).toNat = 0 ∧ 14 ≤ ((0xE : Word).extractLsb' 0 4).toNat
      ∧ 14 ≤ ((0xF : Word).extractLsb' 0 4).toNat ∧ (0x1D : Word).extractLsb' 4 4 ≠ 0
      ∧ (0x81 : Word).extractLsb' 4 4 ≠ 0 ∧ (0x00010001 : Word).extractLsb' 16 16 ≠ 0
      ∧ (0x80000001 : Word).extractLsb' 16 16 ≠ 0 := by decide

theorem witness_DecodeOfEncode :
    WellFormed (.cfgAmpSweep 0xFF) ∧ WellFormed (.frCsr [0xFF]) ∧ WellFormed (.frCw1 [0xFF, 0, 0, 0xFF]) := by decide

theorem witness_EncodeOfDecode :
    decodeFrame [0x00, 0xFF] = .ok (.frCsr [0xFF]) ∧ decodeFrame [0x0A, 1, 2, 3, 4] = .ok (.frCw1 [1, 2, 3, 4])
      ∧ decodeCommand 0x0000FF0D = .ok .encPhaseSweep ∧ decodeCommand 0x0000FF02 = .ok (.selectChannel 0xFF) := by decide

theorem witness_StepRunsCommand :
    (hosted (cmd 3)).rstN = true ∧ (hosted (cmd 3)).host = .write 0x00 4 3 :: []
      ∧ decodeCommand 3 = .ok .latchUpdate ∧ (hosted (cmd 3)).execState = .idle
      ∧ ({ busyWith [] 0 with host := cmd 3 } : State).execState ≠ .idle := by decide

/-- With a program left to play. -/
theorem witness_StepRunsFrame :
    let s : State := { lastBit [0x00, 0x10] with host := [.idle, .write 0x00 4 3] }
    s.rstN = true ∧ s.hostOp = .idle ∧ s.execState = .running .writeReg [.set .sclk true, .wait 1] 0
      ∧ nextSet [.set .sclk true, .wait 1] = some (.sclk, true, [.wait 1])
      ∧ s.lines.ddsReset ≠ s.cfg.resetActiveLevel ∧ s.chipLost = false
      ∧ s.lines.csN = false ∧ s.lines.sclk = false
      ∧ s.chip.buf ++ [s.lines.sdio0] = frameBits [0x00, 0x10]
      ∧ decodeFrame [0x00, 0x10] = .ok (.frCsr [0x10]) := by decide

/-- Both sides of the range of R110. -/
theorem witness_FrequencyWord :
    0 < 500000000 ∧ ftwValid 500000000 499999999 = true ∧ ftwValid 500000000 500000000 = false := by decide

theorem witness_FrequencyRoundTrip :
    (499999999 : Word).toNat < 500000000 ∧ (0 : Word).toNat < 1 := by decide

theorem witness_PhaseWraps :
    (0 : Word).toNat + 360 * 1 < 2 ^ 32 ∧ (255 : Word).toNat + 360 * 11930464 < 2 ^ 32 := by decide

theorem witness_AmplitudeMasking : (0xFFFC : BitVec 16).extractLsb' 0 2 = 0 := by decide

theorem witness_ChannelSelectOneHot : (0 : Byte).toNat ≤ 3 ∧ (3 : Byte).toNat ≤ 3 ∧ 7 < 8 := by decide

/-- The last valid operand and the first invalid one. -/
theorem witness_EncFreqResult :
    (args 499999999 0 0 0 0 0).execState = .idle
      ∧ (args 499999999 0 0 0 0 0).args.a0.toNat < (args 499999999 0 0 0 0 0).cfg.fSysclk
      ∧ (args 500000000 0 0 0 0 0).cfg.fSysclk ≤ (args 500000000 0 0 0 0 0).args.a0.toNat := by decide

theorem witness_EncPhaseResults : (args 0xFFFFFFFF 0 0 0 0 0).execState = .idle := by decide

theorem witness_EncAmpResults : (args 0xFFFFFFFF 0xFFFFFFFF 0 0 0 0).execState = .idle := by decide

theorem witness_InitIssues : fresh.execState = .idle ∧ fresh.initDone = false := by decide

theorem witness_SelectChannelSends :
    ready.execState = .idle ∧ ready.initDone = true ∧ (0 : Byte).toNat ≤ 3 ∧ (3 : Byte).toNat ≤ 3 := by decide

theorem witness_LatchUpdatePulses : ready.execState = .idle ∧ ready.initDone = true := by decide

/-- The narrowest and a widest register. -/
theorem witness_WriteRegSends :
    let s := args 0x00000100 0x20 0 0 0 0
    let t := args 0x0000040A 0xFFFFFFFF 0 0 0 0
    (s.execState = .idle ∧ s.initDone = true ∧ s.args.a0.extractLsb' 0 8 = ChipReg.csr.addr
        ∧ (s.args.a0.extractLsb' 8 8).toNat = ChipReg.csr.width)
      ∧ t.args.a0.extractLsb' 0 8 = ChipReg.cw1.addr ∧ (t.args.a0.extractLsb' 8 8).toNat = ChipReg.cw1.width := by decide

theorem witness_FixedToneSends :
    let s := args 499999999 0xFFFFFFFF 0xFFFFFFFF 0 0 0
    s.execState = .idle ∧ s.initDone = true ∧ (3 : Byte).toNat ≤ 3 ∧ s.args.a0.toNat < s.cfg.fSysclk := by decide

theorem witness_FreqSweepSends :
    let s := args 499999999 0 499999999 1 0xFFFFFFFF 0xFFFFFFFF
    s.execState = .idle ∧ s.initDone = true ∧ (0 : Byte).toNat ≤ 3 ∧ s.args.a0.toNat < s.cfg.fSysclk
      ∧ s.args.a1.toNat < s.cfg.fSysclk ∧ s.args.a2.toNat < s.cfg.fSysclk ∧ s.args.a3.toNat < s.cfg.fSysclk := by decide

/-- Under each policy. -/
theorem witness_PhaseSweepSends :
    let s := args 499999999 0 0xFFFFFFFF 1 0xFFFFFFFF 0xFFFFFFFF
    s.execState = .idle ∧ s.initDone = true ∧ (3 : Byte).toNat ≤ 3 ∧ s.args.a0.toNat < s.cfg.fSysclk
      ∧ s.cfg.shadowEndPolicy = .intended
      ∧ ({ s with cfg := { cfg with shadowEndPolicy := .unconstrained } } : State).args.a0.toNat < cfg.fSysclk := by decide

theorem witness_AmpSweepSends :
    let s := args 0 0 0xFFFFFFFF 1 0xFFFFFFFF 0xFFFFFFFF
    s.execState = .idle ∧ s.initDone = true ∧ (1 : Byte).toNat ≤ 3 ∧ s.args.a0.toNat < s.cfg.fSysclk
      ∧ s.cfg.shadowEndPolicy = .intended := by decide

/-- Two runs of one command with different histories. -/
theorem witness_NoHiddenState :
    ∃ t t', exec (.selectChannel 2) ready = .next t
      ∧ exec (.selectChannel 2) { ready with result := 7, errSticky := true } = .next t'
      ∧ t.execState.isRunning = true ∧ t'.execState.isRunning = true
      ∧ ready.cfg.shadowEndPolicy = .intended ∧ ready.execState = .idle :=
  ⟨_, _, rfl, rfl, rfl, rfl, rfl, rfl⟩

/-- Each clause at its edge. -/
theorem witness_CheckOrder :
    ready.execState = .idle ∧ ready.initDone = true ∧ fresh.execState = .idle ∧ fresh.initDone = false
      ∧ 4 ≤ (4 : Byte).toNat ∧ (3 : Byte).toNat ≤ 3
      ∧ 0x0A < ((args 0x0000040B 0 0 0 0 0).args.a0.extractLsb' 0 8).toNat
      ∧ (args 0x0000050A 0 0 0 0 0).args.a0.extractLsb' 0 8 = ChipReg.cw1.addr
      ∧ ((args 0x0000050A 0 0 0 0 0).args.a0.extractLsb' 8 8).toNat ≠ ChipReg.cw1.width
      ∧ (args 500000000 0 0 0 0 0).cfg.fSysclk ≤ (args 500000000 0 0 0 0 0).args.a0.toNat
      ∧ (args 0 0 0 500000000 0 0).cfg.fSysclk ≤ (args 0 0 0 500000000 0 0).args.a3.toNat := by decide

theorem witness_RejectionFrame :
    ∃ t, Instr.isCommand .init = true ∧ exec .init ready = .next t ∧ t.errCode ≠ 0 :=
  ⟨_, rfl, rfl, by decide⟩

theorem witness_BusyOfferLost :
    let s : State := { busyWith [] 0 with host := cmd 0x0000000E }
    s.rstN = true ∧ s.execState ≠ .idle ∧ s.host = .write 0x00 4 0x0000000E :: [] := by decide

theorem witness_StickyUntilReset :
    ∃ t, step { ready with errSticky := true } = .next t ∧ ({ ready with errSticky := true } : State).errSticky = true
      ∧ ({ ready with errSticky := true } : State).inResetCycle = false := ⟨_, rfl, rfl, rfl⟩

/-- The completion of `INIT`, and block reset. -/
theorem witness_InitDoneChanges :
    (∃ t, step { fresh with busy := true, execState := .running .init [.wait 6] 0 } = .next t
        ∧ t.initDone ≠ fresh.initDone)
      ∧ ∃ t, step (hosted [.blockReset]) = .next t ∧ t.initDone ≠ ready.initDone :=
  ⟨⟨_, rfl, by decide⟩, ⟨_, rfl, by decide⟩⟩

/-- An `ENC_*` command, and block reset. -/
theorem witness_OnlyEncodersWriteResult :
    (∃ t, step { args 1 0 0 0 0 0 with host := cmd 9 } = .next t ∧ t.result ≠ ready.result)
      ∧ ∃ t, step { hosted [.blockReset] with result := 7 } = .next t ∧ t.result ≠ 7 :=
  ⟨⟨_, rfl, by decide⟩, ⟨_, rfl, by decide⟩⟩

theorem witness_NoInstructionWritesArgs :
    (∃ t, exec .encFreq (args 1 2 3 4 5 6) = .next t) ∧ ∃ t, exec (.frCsr [0x10]) ready = .next t :=
  ⟨⟨_, rfl⟩, ⟨_, rfl⟩⟩

/-- The reserved offsets at both ends, and bits of `STATUS` at the edges of its fields. -/
theorem witness_WindowReads :
    (0x24 ≤ 0x24 ∧ 0x24 < 0x40) ∧ (0x24 ≤ 0x3F ∧ 0x3F < 0x40)
      ∧ ready.readReg 0x1C = 2 ∧ ({ ready with errCode := 0xF } : State).readReg 0x1C = 0xF2 := by decide

theorem witness_ReadHasNoEffect :
    (hosted [.read 0x3C 4]).rstN = true ∧ 0x3C < 0x40 ∧ 0x3C % 4 = 0 ∧ 0x00 < 0x40
      ∧ (hosted [.read 0x3C 4]).host = .read 0x3C 4 :: [] := by decide

theorem witness_ArgWriteTaken :
    (hosted [.write 0x18 4 7]).rstN = true
      ∧ (hosted [.write 0x18 4 7]).host = .write (0x04 + 4 * (5 : Fin 6).val) 4 7 :: []
      ∧ (hosted [.write 0x04 4 7]).host = .write (0x04 + 4 * (0 : Fin 6).val) 4 7 :: [] := by decide

theorem witness_OtherWritesIgnored :
    (hosted [.write 0x1C 4 7]).rstN = true ∧ 0x1C ≤ 0x1C ∧ 0x3C < 0x40 ∧ 0x1C % 4 = 0
      ∧ (hosted [.write 0x1C 4 7]).host = .write 0x1C 4 7 :: [] := by decide

/-- Inside the window by width and by alignment, and the first offset past it. -/
theorem witness_OtherAccessesStop :
    (hosted [.read 0x3F 4]).rstN = true
      ∧ 0x3F < 0x40 ∧ (2 ≠ 4 ∨ 0x3C % 4 ≠ 0) ∧ (4 ≠ 4 ∨ 0x3F % 4 ≠ 0) ∧ 0x40 ≤ 0x40
      ∧ (hosted [.read 0x3F 4]).host = .read 0x3F 4 :: []
      ∧ (hosted [.write 0x40 4 7]).host = .write 0x40 4 7 :: [] := by decide

theorem witness_PseudoInstructions :
    ready.rstN = true ∧ (hosted [.waitIdle]).host = .waitIdle :: []
      ∧ (hosted [.expectOk]).host = .expectOk :: [] := by decide

theorem witness_EncPhaseLineRuns :
    let s := hosted ((ProgramLine.encPhase 180).expand ++ [.idle])
    s.rstN = true ∧ s.execState = .idle ∧ s.busy = false
      ∧ s.host = (ProgramLine.encPhase 180).expand ++ [.idle] := by decide

theorem witness_BlockResetValues :
    (hosted [.blockReset]).hostOp = .blockReset ∧ ({ ready with rstN := false } : State).rstN = false
      ∧ (hosted [.blockReset]).lines.csN = true ∧ ChipReadable (hosted [.blockReset]) :=
  ⟨rfl, rfl, rfl, by decide, rfl⟩

theorem witness_AtMostOneSetPerCycle :
    (∃ t, step ready = .next t) ∧ ∃ t, step (busyWith [.set .sclk true] 0) = .next t := ⟨⟨_, rfl⟩, ⟨_, rfl⟩⟩

/-- While the gap lasts, and at its end. -/
theorem witness_GapLowerBound :
    (∃ t, step (busyWith [.set .sclk true] 1) = .next t)
      ∧ (busyWith [.set .sclk true] 1).inResetCycle = false
      ∧ (busyWith [.set .sclk true] 1).execState = .running .writeReg [.set .sclk true] (0 + 1)
      ∧ (∃ t, step (busyWith [.wait 1, .set .sclk true, .wait 2] 0) = .next t)
      ∧ nextSet [.wait 1, .set .sclk true, .wait 2] = some (.sclk, true, [.wait 2]) :=
  ⟨⟨_, rfl⟩, rfl, rfl, ⟨_, rfl⟩, rfl⟩

/-- With nothing left to play, and with something. -/
theorem witness_CompletionStep :
    (busyWith [.wait 3] 0).rstN = true ∧ (busyWith [.wait 3] 0).hostOp = .idle
      ∧ ({ busyWith [.wait 3] 0 with host := [.idle, .waitIdle] } : State).hostOp = .idle
      ∧ (busyWith [.wait 3] 0).execState = .running .writeReg [.wait 3] 0 ∧ setsOf [.wait 3] = [] := by decide

theorem witness_FrameOnTheWire : 0 < 8 * (1 + ([] : List Byte).length) ∧ 39 < 8 * (1 + [1, 2, 3, 4].length) := by decide

theorem witness_CsrFrameActsAtOnce : ChipReadable ready := ⟨by decide, rfl⟩

/-- A channel-scoped register and a global one. -/
theorem witness_FramesStage :
    ChipReadable ready ∧ [1, 2, 3, 4].length = ChipReg.cftw.width ∧ ChipReg.cftw ∈ ready.cfg.channelScoped
      ∧ ChipReg.fr1 ∉ ready.cfg.channelScoped ∧ ready.chip.csr.getLsbD (4 + (1 : Fin 4).val) = true :=
  ⟨⟨by decide, rfl⟩, by decide, by decide, by decide, by decide⟩

theorem witness_UpdateEdgeCommits :
    let s : State := { busyWith [.set .ioUpdate true, .wait 2, .set .ioUpdate false] 0 with host := [.idle, .waitIdle] }
    s.rstN = true ∧ s.hostOp = .idle
      ∧ s.execState = .running .writeReg [.set .ioUpdate true, .wait 2, .set .ioUpdate false] 0
      ∧ nextSet [.set .ioUpdate true, .wait 2, .set .ioUpdate false] =
          some (.ioUpdate, true, [.wait 2, .set .ioUpdate false])
      ∧ s.lines.ioUpdate = false ∧ s.lines.ddsReset ≠ s.cfg.resetActiveLevel ∧ s.chipLost = false := by decide

theorem witness_ConfigurationFixed : ∃ t, step ready = .next t := ⟨_, rfl⟩

theorem witness_StepKeepsInvariant : ready.Inv ∧ ∃ t, step ready = .next t :=
  ⟨⟨rfl, by decide, fun h => absurd rfl h, by decide, (by decide : ready.lines.atRest ready.cfg = true)⟩, ⟨_, rfl⟩⟩

/-- In the middle of `INIT`, with the chip held in reset. -/
theorem witness_NoFrameInChipReset :
    let s : State := { fresh with
      busy := true
      execState := .running .init [.set .ddsReset true, .wait 6] 0
      lines := { fresh.lines with ddsReset := false } }
    s.Inv ∧ s.lines.ddsReset = s.cfg.resetActiveLevel :=
  ⟨⟨rfl, by decide, fun h => absurd rfl h, by decide,
    ⟨by decide, by decide, by decide, by decide, by decide⟩⟩, rfl⟩

/-- A host that polls, and reads at both ends of the window. -/
theorem witness_RunningCommandCompletes :
    let s : State := { busyWith (upd cfg) 3 with host := [.waitIdle, .read 0x00 4, .read 0x3C 4, .idle, .expectOk] }
    s.rstN = true ∧ (∀ a ∈ s.host, a.quiet = true) ∧ s.execState = .running .writeReg (upd cfg) 3
      ∧ s.busy = true ∧ s.hostOp = .waitIdle := by decide

/-- `CSR` with bits [3:0] clear, and a widest register. -/
theorem witness_FrameReachesReceiver :
    let s : State := { busyWith (regFrame cfg .csr [0xF0]) 0 with host := [.waitIdle] }
    s.rstN = true ∧ (∀ a ∈ s.host, a.quiet = true) ∧ ChipReadable s ∧ s.lines.csN = true ∧ [0xF0].length = ChipReg.csr.width
      ∧ ([0xF0] : List Byte).headD 0 &&& 0x0F = 0
      ∧ s.execState = .running .writeReg (regFrame s.cfg .csr [0xF0]) 0
      ∧ [1, 2, 3, 4].length = ChipReg.cftw.width :=
  ⟨rfl, by decide, ⟨by decide, rfl⟩, rfl, rfl, by decide, rfl, rfl⟩

theorem witness_FixedToneReachesChip :
    let s : State := { args 499999999 359 1023 0 0 0 with host := [.waitIdle] }
    ∃ t, s.rstN = true ∧ (∀ a ∈ s.host, a.quiet = true) ∧ s.execState = .idle ∧ s.initDone = true ∧ (3 : Byte).toNat ≤ 3
      ∧ s.args.a0.toNat < s.cfg.fSysclk ∧ s.lines.csN = true ∧ ChipReadable s
      ∧ s.cfg.channelScoped = Config.defaultScoped ∧ exec (.cfgFixedTone 3) s = .next t :=
  ⟨_, rfl, by decide, rfl, rfl, by decide, by decide, rfl, ⟨by decide, rfl⟩, rfl, rfl⟩

end Sys2Proof.Tests
end

section
/-! PROOF. The configuration record stands still: each phase of a cycle keeps `CFG` (00_scope R6, 70_reset_and_hazards
R228), so a step does. -/

namespace Sys2Proof.Machine

theorem SameBlock.cfg_eq {s t : State} (h : SameBlock s t) : t.cfg = s.cfg := by
  unfold SameBlock at h
  rw [h]

/-! ### The host's part -/

@[simp] theorem State.beginCycle_cfg (s : State) : s.beginCycle.cfg = s.cfg :=
  (beginCycle_sameBlock s).cfg_eq

@[simp] theorem State.blockReset_cfg (s : State) : s.blockReset.cfg = s.cfg := by
  unfold State.blockReset
  exact (SameBlock.receive _ s.lines).cfg_eq

@[simp] theorem State.resetCycle_cfg (s : State) : s.resetCycle.cfg = s.cfg :=
  s.beginCycle.blockReset_cfg.trans s.beginCycle_cfg

@[simp] theorem State.writeReg_cfg (s : State) (offset : Nat) (v : Word) : (s.writeReg offset v).cfg = s.cfg := by
  unfold State.writeReg
  split <;> rfl

@[simp] theorem State.rejectReserved_cfg (s : State) : s.rejectReserved.cfg = s.cfg := by
  unfold State.rejectReserved
  split <;> rfl

theorem hostPhase_cfg {s t : State} {i : Option Instr} (h : s.hostPhase = .next (t, i)) : t.cfg = s.cfg := by
  rcases hostPhase_cases h with
    ⟨-, rfl, -⟩ | ⟨-, -, d, H, rfl⟩ | ⟨-, -, offset, v, -, -, rfl⟩ | ⟨-, v, j, -, -, -, rfl⟩ | ⟨-, -, v, e, -, -, rfl⟩
  · exact s.resetCycle_cfg
  · exact s.beginCycle_cfg
  · exact (s.beginCycle.writeReg_cfg offset v).trans s.beginCycle_cfg
  · exact s.beginCycle_cfg
  · exact s.beginCycle.rejectReserved_cfg.trans s.beginCycle_cfg

/-! ### The instruction and the block's part -/

/-- A command touches the block's record and a frame the receiver; neither holds `CFG`. -/
theorem exec_cfg {i : Instr} {s t : State} (h : exec i s = .next t) : t.cfg = s.cfg := by
  cases hi : i.isCommand with
  | true =>
    rcases exec_command_cases hi h with ⟨e, rfl⟩ | ⟨-, -, v, rfl⟩ | ⟨-, -, op, E, rfl⟩ <;> rfl
  | false => exact (exec_frame_sameBlock hi h).cfg_eq

theorem runFetched_cfg {i : Option Instr} {s t : State} (h : runFetched i s = .next t) : t.cfg = s.cfg := by
  cases i with
  | none => cases h; rfl
  | some i => exact exec_cfg h

theorem stepBlock_cfg {s t : State} (h : stepBlock s = .next t) : t.cfg = s.cfg := by
  obtain ⟨u, hu, hcases⟩ := stepBlock_cases s
  obtain rfl : u = t := by simpa [hu] using h
  rcases hcases with ⟨-, rfl⟩ | ⟨op, E, k, -, rfl⟩ | ⟨op, E, -, -, rfl⟩ | ⟨op, E, l, v, rest, -, -, hsame⟩
  · rfl
  · rfl
  · rfl
  · exact hsame.cfg_eq

/-! ### The step -/

theorem step_cfg {s t : State} (h : step s = .next t) : t.cfg = s.cfg := by
  obtain ⟨u, i, w, hhost, hinstr, hblock⟩ := step_next h
  have hw : w.cfg = s.cfg := (runFetched_cfg hinstr).trans (hostPhase_cfg hhost)
  split at hblock
  · exact (stepBlock_cfg hblock).trans hw
  · cases hblock
    exact hw

/-- Settles O54: the host's part, the instruction it yields and the block's part each keep `CFG`. -/
theorem configurationFixed : Obligations.ConfigurationFixed :=
  fun _ _ => step_cfg

end Sys2Proof.Machine
end

section
/-! PROOF. What a step can do, said once (70_reset_and_hazards R250, R216): a cycle of block reset, or the host's part with
the command it offers, `HostEffect`, and then the block's own part. -/

namespace Sys2Proof.Machine

/-! ### Block reset -/

/-- A cycle of block reset leaves the reset values in the block's record and records no event (R33, R240). -/
theorem resetCycle_sameBlock (s : State) :
    SameBlock
      { s with
        args := Args.reset, busy := false, initDone := false, errSticky := false, errCode := 0, result := 0,
        lines := Lines.reset s.cfg, execState := .idle,
        rstN := s.hostOp != .blockReset, host := s.resetCycle.host, readData := none, cycle := s.cycle + 1 }
      s.resetCycle := by
  have hbegin := beginCycle_sameBlock s
  have hreset : SameBlock
      { s.beginCycle with
        args := Args.reset, busy := false, initDone := false, errSticky := false, errCode := 0, result := 0,
        lines := Lines.reset s.beginCycle.cfg, execState := .idle }
      s.beginCycle.blockReset := .receive _ s.beginCycle.lines
  unfold SameBlock at hbegin hreset ⊢
  unfold State.resetCycle
  rw [hreset, hbegin]

@[simp] theorem State.resetCycle_initDone (s : State) : s.resetCycle.initDone = false :=
  (congrArg State.initDone (resetCycle_sameBlock s) :)

@[simp] theorem State.resetCycle_result (s : State) : s.resetCycle.result = 0 :=
  (congrArg State.result (resetCycle_sameBlock s) :)

@[simp] theorem State.resetCycle_trace (s : State) : s.resetCycle.trace = s.trace :=
  (congrArg State.trace (resetCycle_sameBlock s) :)

/-! ### The host's part -/

/-- A register write reaches the operand registers alone (R23, R24, R25). -/
theorem writeReg_eq (s : State) (offset : Nat) (v : Word) :
    s.writeReg offset v = { s with args := (s.writeReg offset v).args } := by
  unfold State.writeReg
  split <;> rfl

/-- `x` is `s` with a new cycle begun: past the clock, the host's side, the operands and what is known of the chip it is
still `s`. -/
def CycleBegun (s x : State) : Prop :=
  x = { s with
    args := x.args, host := x.host, readData := x.readData, chip := x.chip, chipLost := x.chipLost,
    cycle := s.cycle + 1, draws := x.draws }

theorem cycleBegun_beginCycle (s : State) : CycleBegun s s.beginCycle := by
  have h := beginCycle_sameBlock s
  unfold SameBlock at h
  unfold CycleBegun
  rw [h]

theorem CycleBegun.host {s x : State} (h : CycleBegun s x) (d : Option Word) (H : List HostOp) :
    CycleBegun s { x with readData := d, host := H } := by
  unfold CycleBegun at *
  rw [h]

theorem CycleBegun.writeReg {s x : State} (h : CycleBegun s x) (offset : Nat) (v : Word) :
    CycleBegun s (x.writeReg offset v) := by
  unfold CycleBegun at *
  rw [writeReg_eq, h]

theorem CycleBegun.cfg {s x : State} (h : CycleBegun s x) : x.cfg = s.cfg := (congrArg State.cfg h :)

theorem CycleBegun.initDone {s x : State} (h : CycleBegun s x) : x.initDone = s.initDone := (congrArg State.initDone h :)

theorem CycleBegun.result {s x : State} (h : CycleBegun s x) : x.result = s.result := (congrArg State.result h :)

theorem CycleBegun.lines {s x : State} (h : CycleBegun s x) : x.lines = s.lines := (congrArg State.lines h :)

theorem CycleBegun.execState {s x : State} (h : CycleBegun s x) : x.execState = s.execState :=
  (congrArg State.execState h :)

theorem CycleBegun.cycle {s x : State} (h : CycleBegun s x) : x.cycle = s.cycle + 1 := (congrArg State.cycle h :)

theorem CycleBegun.trace {s x : State} (h : CycleBegun s x) : x.trace = s.trace := (congrArg State.trace h :)

/-- What the host's part of a cycle can do to the state `x` the cycle begins with, outside block reset: nothing more, the
rejection of a command, or, while no command runs, the acceptance of one (R211, R212). -/
inductive HostEffect (s x : State) : State → Prop where
  | none : HostEffect s x x
  | rejected (e : ErrCode) : HostEffect s x (x.reject e)
  | encoded (v : Word) (i : Instr) (r : Word) (hidle : s.execState = .idle) (hop : s.hostOp = .write cmdOffset 4 v)
      (hdecode : decodeCommand v = .ok i) (hencode : i.isEncode = true) :
      HostEffect s x { x with errCode := errNone, result := r }
  | issued (i : Instr) (op : Opcode) (E : List Event) (hidle : s.execState = .idle) (hcommand : i.isCommand = true)
      (hexec : exec i x = .next (({ x with errCode := errNone } : State).issue op E)) :
      HostEffect s x (({ x with errCode := errNone } : State).issue op E)

theorem Exec.isRunning_eq_false {e : Exec} (h : e.isRunning = false) : e = .idle := by
  cases e with
  | idle => rfl
  | running op E k => cases h

/-- A command offered to a state the cycle began with has one of the host's effects. -/
theorem hostEffect_of_exec {s x w : State} {v : Word} {i : Instr} (hx : CycleBegun s x)
    (hop : s.hostOp = .write cmdOffset 4 v) (hdecode : decodeCommand v = .ok i) (hexec : exec i x = .next w) :
    HostEffect s x w := by
  have hcommand := decodeCommand_isCommand hdecode
  have hidle : x.execState.isRunning = false → s.execState = .idle := fun h =>
    Exec.isRunning_eq_false (hx.execState ▸ h)
  rcases exec_command_cases hcommand hexec with ⟨e, rfl⟩ | ⟨hr, hencode, r, rfl⟩ | ⟨hr, -, op, E, rfl⟩
  · exact .rejected e
  · exact .encoded v i r (hidle hr) hop hdecode hencode
  · exact .issued i op E (hidle hr) hcommand hexec

theorem hostEffect_rejectReserved (s x : State) : HostEffect s x x.rejectReserved := by
  unfold State.rejectReserved
  split
  · exact .rejected .busy
  · exact .rejected .badOpcode

/-- The host's part of a cycle outside block reset, with the command it offers. -/
theorem hostPhase_hostEffect {s t w : State} {i : Option Instr} (hreset : s.inResetCycle = false)
    (hhost : s.hostPhase = .next (t, i)) (hinstr : runFetched i t = .next w) :
    ∃ x, CycleBegun s x ∧ HostEffect s x w := by
  have hbegin := cycleBegun_beginCycle s
  rcases hostPhase_cases hhost with
    ⟨hr, -, -⟩ | ⟨-, rfl, d, H, rfl⟩ | ⟨-, rfl, offset, v, -, -, rfl⟩ | ⟨-, v, j, hop, hdecode, rfl, rfl⟩ |
    ⟨-, rfl, v, e, -, -, rfl⟩
  · rw [hreset] at hr
    cases hr
  · cases hinstr
    exact ⟨_, hbegin.host d H, .none⟩
  · cases hinstr
    exact ⟨_, hbegin.writeReg offset v, .none⟩
  · exact ⟨_, hbegin, hostEffect_of_exec hbegin hop hdecode hinstr⟩
  · cases hinstr
    exact ⟨_, hbegin, hostEffect_rejectReserved s _⟩

/-- The host's part touches neither `INIT_DONE` nor the lines nor the trace. -/
theorem HostEffect.unchanged {s x w : State} (hx : CycleBegun s x) (h : HostEffect s x w) :
    w.initDone = s.initDone ∧ w.lines = s.lines ∧ w.trace = s.trace ∧ w.cycle = s.cycle + 1 := by
  cases h <;> exact ⟨hx.initDone, hx.lines, hx.trace, hx.cycle⟩

/-- While a command runs the host's part leaves `EXEC` and `RESULT` (R213). -/
theorem HostEffect.of_running {s x w : State} (hx : CycleBegun s x) (h : HostEffect s x w)
    (hrun : s.execState.isRunning = true) : w.execState = s.execState ∧ w.result = s.result := by
  cases h with
  | none => exact ⟨hx.execState, hx.result⟩
  | rejected e => exact ⟨hx.execState, hx.result⟩
  | encoded v i r hidle =>
    rw [hidle] at hrun
    cases hrun
  | issued i op E hidle =>
    rw [hidle] at hrun
    cases hrun

/-! ### The step -/

/-- A step is a cycle of block reset, or the host's part and then, if a command was already running, the block's part. -/
theorem step_cases {s t : State} (h : step s = .next t) :
    (s.inResetCycle = true ∧ t = s.resetCycle) ∨
    (s.inResetCycle = false ∧ ∃ x w, CycleBegun s x ∧ HostEffect s x w ∧
      ((s.execState.isRunning = false ∧ t = w) ∨ (s.execState.isRunning = true ∧ stepBlock w = .next t))) := by
  cases hreset : s.inResetCycle with
  | true =>
    rw [step_reset hreset] at h
    cases h
    exact .inl ⟨rfl, rfl⟩
  | false =>
    obtain ⟨u, i, w, hhost, hinstr, hblock⟩ := step_next h
    obtain ⟨x, hx, hw⟩ := hostPhase_hostEffect hreset hhost hinstr
    refine .inr ⟨rfl, x, w, hx, hw, ?_⟩
    cases hrun : s.execState.isRunning with
    | true => exact .inr ⟨rfl, by simpa [hrun] using hblock⟩
    | false =>
      have hwt : w = t := by simpa [hrun] using hblock
      exact .inl ⟨rfl, hwt.symm⟩

/-- The block's part, of a state known to run a command, by its outcome (R214, R250). -/
theorem stepBlock_next {w t : State} (h : stepBlock w = .next t) :
    (w.execState = .idle ∧ t = w) ∨
    (∃ op E k, w.execState = .running op E (k + 1) ∧ t = { w with execState := .running op E k }) ∨
    (∃ op E, w.execState = .running op E 0 ∧ nextSet E = none ∧ t = w.complete op) ∨
    (∃ op E l v rest, w.execState = .running op E 0 ∧ nextSet E = some (l, v, rest) ∧
      SameBlock ((w.emit l v).running op rest) t) := by
  obtain ⟨u, hu, hcases⟩ := stepBlock_cases w
  rw [hu] at h
  cases h
  exact hcases

end Sys2Proof.Machine
end

section
/-! PROOF. Which registers a step and an instruction leave alone: `INIT_DONE`, `RESULT`, the operand registers, the trace
and the lines (10_state R21 to R26). -/

namespace Sys2Proof.Machine

/-! ### `INIT_DONE` -/

/-- The block's part changes `INIT_DONE` only by completing `INIT`, and then to 1 (R166). -/
theorem stepBlock_initDone {w t : State} (h : stepBlock w = .next t) (hne : t.initDone ≠ w.initDone) :
    ∃ E, w.execState = .running .init E 0 ∧ setsOf E = [] ∧ t.initDone = true ∧ t.execState = .idle := by
  rcases stepBlock_next h with ⟨-, rfl⟩ | ⟨op, E, k, -, rfl⟩ | ⟨op, E, hexec, hnext, rfl⟩ | ⟨op, E, l, v, rest, -, -, hsame⟩
  · exact absurd rfl hne
  · exact absurd rfl hne
  · rw [State.complete_initDone] at hne
    by_cases hop : op = .init
    · subst hop
      exact ⟨E, hexec, nextSet_none hnext, by simp, rfl⟩
    · simp [hop] at hne
  · exact absurd (congrArg State.initDone hsame :) hne

/-- Settles O31: outside block reset only the block's part reaches `INIT_DONE`. -/
theorem initDoneChanges : Obligations.InitDoneChanges := by
  intro s t h hne
  rcases step_cases h with ⟨hreset, rfl⟩ | ⟨-, x, w, hx, hw, ⟨-, rfl⟩ | ⟨hrun, hblock⟩⟩
  · exact .inl ⟨hreset, s.resetCycle_initDone⟩
  · exact absurd (hw.unchanged hx).1 hne
  · right
    rw [← (hw.of_running hx hrun).1]
    exact stepBlock_initDone hblock ((hw.unchanged hx).1 ▸ hne)

/-! ### `RESULT` -/

theorem stepBlock_result {w t : State} (h : stepBlock w = .next t) : t.result = w.result := by
  rcases stepBlock_next h with ⟨-, rfl⟩ | ⟨op, E, k, -, rfl⟩ | ⟨op, E, -, -, rfl⟩ | ⟨op, E, l, v, rest, -, -, hsame⟩
  · rfl
  · rfl
  · rfl
  · exact (congrArg State.result hsame :)

/-- Settles O32: of the host's effects only an encoder's acceptance writes `RESULT`, and the block's part never does. -/
theorem onlyEncodersWriteResult : Obligations.OnlyEncodersWriteResult := by
  intro s t h hne
  rcases step_cases h with ⟨hreset, rfl⟩ | ⟨-, x, w, hx, hw, ⟨-, rfl⟩ | ⟨hrun, hblock⟩⟩
  · exact .inl ⟨hreset, s.resetCycle_result⟩
  · cases hw with
    | none => exact absurd hx.result hne
    | rejected e => exact absurd hx.result hne
    | encoded v i r hidle hop hdecode hencode => exact .inr ⟨v, i, hop, hdecode, hencode, hidle, rfl⟩
    | issued i op E => exact absurd hx.result hne
  · exact absurd ((stepBlock_result hblock).trans (hw.of_running hx hrun).2) hne

/-! ### The operand registers -/

/-- Settles O33: a command is rejected, encodes or issues a list, and a frame leaves the block as it is. -/
theorem noInstructionWritesArgs : Obligations.NoInstructionWritesArgs := by
  intro i s t h
  cases hi : i.isCommand with
  | true =>
    rcases exec_command_cases hi h with ⟨e, rfl⟩ | ⟨-, -, v, rfl⟩ | ⟨-, -, op, E, rfl⟩
    · rfl
    · rfl
    · rfl
  | false => exact (congrArg State.args (exec_frame_sameBlock hi h) :)

/-! ### The trace and the lines -/

/-- The block's part emits nothing, or one `Set` at the current cycle. -/
theorem stepBlock_emits {w t : State} (h : stepBlock w = .next t) :
    (t.trace = w.trace ∧ t.lines = w.lines) ∨
    ∃ l v, t.trace = w.trace ++ [⟨w.cycle, l, v⟩] ∧ t.lines = w.lines.set l v := by
  rcases stepBlock_next h with ⟨-, rfl⟩ | ⟨op, E, k, -, rfl⟩ | ⟨op, E, -, -, rfl⟩ | ⟨op, E, l, v, rest, -, -, hsame⟩
  · exact .inl ⟨rfl, rfl⟩
  · exact .inl ⟨rfl, rfl⟩
  · exact .inl ⟨rfl, rfl⟩
  · exact .inr ⟨l, v, (congrArg State.trace hsame :), (congrArg State.lines hsame :)⟩

/-- Settles O43: block reset and the host's part add nothing to the trace. -/
theorem atMostOneSetPerCycle : Obligations.AtMostOneSetPerCycle := by
  intro s t h
  rcases step_cases h with ⟨hreset, rfl⟩ | ⟨hreset, x, w, hx, hw, ht⟩
  · exact .inl ⟨s.resetCycle_trace, fun hno => by rw [hreset] at hno; cases hno⟩
  · obtain ⟨-, hlines, htrace, hcycle⟩ := hw.unchanged hx
    rcases ht with ⟨-, rfl⟩ | ⟨-, hblock⟩
    · exact .inl ⟨htrace, fun _ => hlines⟩
    · rw [← hlines, ← htrace, ← hcycle]
      rcases stepBlock_emits hblock with ⟨htrace', hlines'⟩ | hset
      · exact .inl ⟨htrace', fun _ => hlines'⟩
      · exact .inr ⟨hreset, hset⟩

end Sys2Proof.Machine
end

section
/-! PROOF. The list a command issues is a function of its opcode, its channel, the operands, `CFG` and, in the shadow slot,
one draw (10_state R34). -/

namespace Sys2Proof.Machine

/-- The opcode a line-driving command runs under and the list it issues; none for what issues no list. -/
def issuedBy (c : Cfg) (a : Args) (draw : BitVec 32) : Instr → Option (Opcode × List Event)
  | .init => some (.init, initEvents c)
  | .selectChannel ch => some (.selectChannel, sel c ch)
  | .latchUpdate => some (.latchUpdate, upd c)
  | .writeReg => some (.writeReg, frame c (writeRegAddr a) (writeRegPayload a))
  | .cfgFixedTone ch => some (.cfgFixedTone, fixedToneEvents c ch a)
  | .cfgFreqSweep ch => some (.cfgFreqSweep, freqSweepEvents c ch a)
  | .cfgPhaseSweep ch => some (.cfgPhaseSweep, phaseSweepEvents c ch a draw)
  | .cfgAmpSweep ch => some (.cfgAmpSweep, ampSweepEvents c ch a draw)
  | _ => none

/-- Only the two sweeps with a shadow slot look at the draw, and under `INTENDED` not even they (R189, R190). -/
theorem issuedBy_draw {c : Cfg} {i : Instr}
    (h : c.shadowEndPolicy = .intended ∨ ∀ ch, i ≠ .cfgPhaseSweep ch ∧ i ≠ .cfgAmpSweep ch)
    (a : Args) (draw draw' : BitVec 32) : issuedBy c a draw i = issuedBy c a draw' i := by
  rcases h with hpolicy | hother
  · have hshadow (p : List Byte) : shadowBytes c p draw = shadowBytes c p draw' := by
      simp [shadowBytes, hpolicy]
    cases i
    case cfgPhaseSweep ch => simp only [issuedBy, phaseSweepEvents, hshadow]
    case cfgAmpSweep ch => simp only [issuedBy, ampSweepEvents, hshadow]
    all_goals rfl
  · cases i
    case cfgPhaseSweep ch => exact absurd rfl (hother ch).1
    case cfgAmpSweep ch => exact absurd rfl (hother ch).2
    all_goals rfl

/-- An offer that leaves the list `E` running under `op` passed its checks and issued just that. -/
theorem offer_issue_running {s t : State} {checks : List (Bool × ErrCode)} {op op' : Opcode} {E : List Event}
    {F : State → List Event} {k : Nat} (hidle : s.execState = .idle)
    (h : offer s checks (fun t => t.issue op' (F t)) = .next t) (hrun : t.execState = .running op E k) :
    firstError checks = none ∧ op' = op ∧ F { s with errCode := errNone } = E := by
  rcases offer_cases h with ⟨hbusy, -⟩ | ⟨-, e, -, rfl⟩ | ⟨-, hchecks, rfl⟩
  · rw [hidle] at hbusy
    cases hbusy
  · rw [State.reject_execState, hidle] at hrun
    cases hrun
  · injection hrun with hop hE
    exact ⟨hchecks, hop, hE⟩

/-- The offer of a command that is first checked for `INIT_DONE` (R215). -/
theorem offer_issue_after_init {s t : State} {checks : List (Bool × ErrCode)} {op op' : Opcode} {E : List Event}
    {F : State → List Event} {k : Nat} (hop' : op' ≠ .init) (hidle : s.execState = .idle)
    (h : offer s ((s.initDone, .notInit) :: checks) (fun t => t.issue op' (F t)) = .next t)
    (hrun : t.execState = .running op E k) :
    some (op', F { s with errCode := errNone }) = some (op, E) ∧ (op = .init ↔ s.initDone = false) := by
  obtain ⟨hchecks, rfl, rfl⟩ := offer_issue_running hidle h hrun
  have hdone : s.initDone = true := (firstError_none_iff _).mp hchecks (s.initDone, .notInit) (by simp)
  exact ⟨rfl, by simp [hop', hdone]⟩

/-- A command that leaves a list running issued it as `issuedBy` says; and it is `INIT` exactly when `INIT_DONE` is 0. -/
theorem exec_issuedBy {i : Instr} {s t : State} {op : Opcode} {E : List Event} {k : Nat}
    (hi : i.isCommand = true) (hidle : s.execState = .idle) (h : exec i s = .next t)
    (hrun : t.execState = .running op E k) :
    issuedBy s.cfg s.args (Config.freeShadow s.draws) i = some (op, E) ∧ (op = .init ↔ s.initDone = false) := by
  cases hencode : i.isEncode with
  | true =>
    rcases exec_command_cases hi h with ⟨e, rfl⟩ | ⟨-, -, v, rfl⟩ | ⟨-, hno, -⟩
    · rw [State.reject_execState, hidle] at hrun
      cases hrun
    · exact absurd (hidle.symm.trans hrun) (by simp)
    · rw [hencode] at hno
      cases hno
  | false =>
    cases i
    case init =>
      obtain ⟨hchecks, rfl, rfl⟩ := offer_issue_running hidle ((exec_init s).symm.trans h) hrun
      have hnew : (!s.initDone) = true := (firstError_none_iff _).mp hchecks (!s.initDone, .reinit) (by simp)
      exact ⟨rfl, by simpa using hnew⟩
    case selectChannel ch => exact offer_issue_after_init (by decide) hidle ((exec_selectChannel ch s).symm.trans h) hrun
    case latchUpdate => exact offer_issue_after_init (by decide) hidle ((exec_latchUpdate s).symm.trans h) hrun
    case writeReg => exact offer_issue_after_init (by decide) hidle ((exec_writeReg s).symm.trans h) hrun
    case cfgFixedTone ch => exact offer_issue_after_init (by decide) hidle ((exec_cfgFixedTone ch s).symm.trans h) hrun
    case cfgFreqSweep ch => exact offer_issue_after_init (by decide) hidle ((exec_cfgFreqSweep ch s).symm.trans h) hrun
    case cfgPhaseSweep ch => exact offer_issue_after_init (by decide) hidle ((exec_cfgPhaseSweep ch s).symm.trans h) hrun
    case cfgAmpSweep ch => exact offer_issue_after_init (by decide) hidle ((exec_cfgAmpSweep ch s).symm.trans h) hrun
    case encFreq | encPhase | encAmp | encAmpSweep | encPhaseSweep => cases hencode
    all_goals cases hi

/-- Settles O26: both runs issue what `issuedBy` gives for the same `CFG` and operands, whatever the draws. -/
theorem noHiddenState : Obligations.NoHiddenState := by
  intro i s s' t t' hi hcfg hargs hpolicy hidle hidle' h h' hrun hrun'
  cases ht : t.execState with
  | idle => rw [ht] at hrun; cases hrun
  | running op E k =>
    cases ht' : t'.execState with
    | idle => rw [ht'] at hrun'; cases hrun'
    | running op' E' k' =>
      have hE := (exec_issuedBy hi hidle h ht).1
      have hE' := (exec_issuedBy hi hidle' h' ht').1
      rw [← hcfg, ← hargs, issuedBy_draw hpolicy s.args _ (Config.freeShadow s.draws), hE] at hE'
      cases hE'
      rfl

end Sys2Proof.Machine
end

section
/-! PROOF. The invariant of the machine holds after reset and every step keeps it (10_state R27, R29, R33; 20_memory R71;
41_transport R149; 42_channel_controller R167, R168; 60_exceptions R210, R212). -/

namespace Sys2Proof.Machine

/-! ### Lists that keep the lines at rest -/

theorem Lines.atRest_iff (c : Cfg) (ls : Lines) :
    ls.atRest c = true ↔ ls.csN = true ∧ ls.ioUpdate = false ∧ ls.ddsReset ≠ c.resetActiveLevel := by
  simp [Lines.atRest, and_assoc]

/-- A line no `Set` names keeps its level (R26). -/
theorem applySets_get {m : Line} {sets : List (Line × Bool)} (h : ∀ e ∈ sets, e.1 ≠ m) (ls : Lines) :
    (applySets ls sets).get m = ls.get m := by
  induction sets generalizing ls with
  | nil => rfl
  | cons e rest ih =>
    obtain ⟨hne, hrest⟩ := List.forall_mem_cons.mp h
    exact (ih hrest (ls.set e.1 e.2)).trans (Lines.get_set_other ls e.1 m e.2 hne.symm)

/-- `E` is a list `op` may issue: it drives only the lines of `op` and leaves lines at rest as it found them. -/
structure SoundFor (c : Cfg) (op : Opcode) (E : List Event) : Prop where
  allowed : ∀ e ∈ E, e.allowed op = true
  rests : ∀ ls : Lines, ls.atRest c = true → (applySets ls (setsOf E)).atRest c = true

theorem SoundFor.append {c : Cfg} {op : Opcode} {E F : List Event} (hE : SoundFor c op E) (hF : SoundFor c op F) :
    SoundFor c op (E ++ F) where
  allowed e he := (List.mem_append.mp he).elim (hE.allowed e) (hF.allowed e)
  rests ls h := by
    rw [setsOf_append, applySets_append]
    exact hF.rests _ (hE.rests ls h)

theorem bitSets_line {bits : List Bool} {e : Line × Bool} (h : e ∈ bits.flatMap bitSets) :
    e.1 = .sclk ∨ e.1 = .sdio0 := by
  obtain ⟨b, -, hb⟩ := List.mem_flatMap.mp h
  simp only [bitSets, List.mem_cons, List.not_mem_nil, or_false] at hb
  rcases hb with rfl | rfl | rfl
  · exact .inl rfl
  · exact .inr rfl
  · exact .inl rfl

/-- A frame takes `CS_N` low and high again and else clocks bits (R141). -/
theorem SoundFor.frame (c : Cfg) {op : Opcode} (hop : op ≠ .init) (a : Byte) (p : List Byte) :
    SoundFor c op (frame c a p) where
  allowed e he := by
    simp only [Machine.frame, frameTail, byteEvents, bitEvents, List.mem_append, List.mem_flatMap, List.mem_cons,
      List.not_mem_nil, or_false] at he
    rcases he with ((rfl | rfl) | ⟨-, -, -, -, rfl | rfl | rfl | rfl | rfl⟩) | rfl | rfl | rfl
    all_goals simp [Event.allowed, hop]
  rests ls h := by
    rw [Lines.atRest_iff] at h ⊢
    obtain ⟨-, hupdate, hreset⟩ := h
    have hkeeps (m : Line) (hclk : m ≠ .sclk) (hdata : m ≠ .sdio0) (k : Lines) :
        (applySets k ((frameBits (a :: p)).flatMap bitSets)).get m = k.get m := by
      refine applySets_get (fun e he => ?_) k
      rcases bitSets_line he with h | h
      · exact h ▸ hclk.symm
      · exact h ▸ hdata.symm
    rw [setsOf_frame, ← List.singleton_append, applySets_append, applySets_append]
    exact ⟨rfl, (hkeeps .ioUpdate (by decide) (by decide) _).trans hupdate,
      (hkeeps .ddsReset (by decide) (by decide) _).trans_ne hreset⟩

/-- The update pulse ends low (R163). -/
theorem SoundFor.upd (c : Cfg) {op : Opcode} (hop : op ≠ .init) : SoundFor c op (upd c) where
  allowed e he := by
    simp only [Machine.upd, List.mem_cons, List.not_mem_nil, or_false] at he
    rcases he with rfl | rfl | rfl | rfl | rfl <;> simp [Event.allowed, hop]
  rests ls h := by
    rw [Lines.atRest_iff] at h ⊢
    exact ⟨h.1, rfl, h.2.2⟩

/-- The reset sequence drives every line to its idle level, and ends with the chip out of reset (R165). -/
theorem SoundFor.initEvents (c : Cfg) : SoundFor c .init (initEvents c) where
  allowed e he := by
    have hall : (Machine.initEvents c).all (Event.allowed .init) = true := rfl
    exact List.all_eq_true.mp hall e he
  rests ls _ := by
    rw [Lines.atRest_iff]
    exact ⟨rfl, rfl, by simp [Machine.initEvents, setsOf, applySets]⟩

/-- Whatever a command issues is sound for it. -/
theorem soundFor_of_issuedBy {c : Cfg} {a : Args} {draw : BitVec 32} {i : Instr} {op : Opcode} {E : List Event}
    (h : issuedBy c a draw i = some (op, E)) : SoundFor c op E := by
  cases i
  case init => cases h; exact .initEvents c
  case selectChannel ch => cases h; exact .frame c (by decide) ..
  case latchUpdate => cases h; exact .upd c (by decide)
  case writeReg => cases h; exact .frame c (by decide) ..
  case cfgFixedTone ch | cfgFreqSweep ch | cfgPhaseSweep ch | cfgAmpSweep ch =>
    cases h
    refine .append ?_ (.upd c (by decide))
    repeat refine .append ?_ (.frame c (by decide) ..)
    exact .frame c (by decide) ..
  all_goals cases h

/-! ### The invariant at reset -/

theorem Lines.reset_atRest (c : Cfg) : (Lines.reset c).atRest c = true := by
  simp [Lines.reset, Lines.atRest]

/-- Settles O42: nothing runs and the lines have their idle levels. -/
theorem resetMeetsInvariant : Obligations.ResetMeetsInvariant := fun c =>
  { busy_iff := rfl
    code_le := Nat.zero_le 8
    code_sticky := fun h => absurd rfl h
    unused_rest := ⟨rfl, rfl, rfl, rfl⟩
    exec_sound := Lines.reset_atRest c }

/-! ### What keeps the invariant -/

theorem State.Inv.sameBlock {s t : State} (hs : s.Inv) (h : SameBlock s t) : t.Inv := by
  rw [h]
  exact ⟨hs.busy_iff, hs.code_le, hs.code_sticky, hs.unused_rest, hs.exec_sound⟩

theorem State.Inv.cycleBegun {s x : State} (hs : s.Inv) (h : CycleBegun s x) : x.Inv := by
  rw [h]
  exact ⟨hs.busy_iff, hs.code_le, hs.code_sticky, hs.unused_rest, hs.exec_sound⟩

theorem State.Inv.resetCycle (s : State) : s.resetCycle.Inv := by
  refine State.Inv.sameBlock ?_ (resetCycle_sameBlock s)
  exact ⟨rfl, Nat.zero_le 8, fun h => absurd rfl h, ⟨rfl, rfl, rfl, rfl⟩, Lines.reset_atRest s.cfg⟩

theorem ErrCode.code_le (e : ErrCode) : e.code.toNat ≤ 8 := by
  cases e <;> decide

theorem State.Inv.reject {s : State} (hs : s.Inv) (e : ErrCode) : (s.reject e).Inv :=
  ⟨hs.busy_iff, e.code_le, fun _ => rfl, hs.unused_rest, hs.exec_sound⟩

/-- Accepting a command clears `ERR_CODE` (R211). -/
theorem State.Inv.accept {s : State} (hs : s.Inv) : ({ s with errCode := errNone } : State).Inv :=
  ⟨hs.busy_iff, Nat.zero_le 8, fun h => absurd rfl h, hs.unused_rest, hs.exec_sound⟩

/-- Lines at rest meet what `EXEC` promises of a list that has just been issued. -/
theorem State.Inv.issue {s : State} (hs : s.Inv) {op : Opcode} {E : List Event} (hidle : s.execState = .idle)
    (hinit : op = .init ↔ s.initDone = false) (hE : SoundFor s.cfg op E) : (s.issue op E).Inv := by
  have hrest : s.lines.atRest s.cfg = true := by
    have := hs.exec_sound
    rwa [hidle] at this
  obtain ⟨hcs, hupdate, hreset⟩ := (Lines.atRest_iff s.cfg s.lines).mp hrest
  exact ⟨rfl, hs.code_le, hs.code_sticky, hs.unused_rest,
    ⟨hinit, hE.allowed, hE.rests _ hrest, fun _ => ⟨hcs, hupdate⟩, fun _ => hreset⟩⟩

theorem State.Inv.hostEffect {s x w : State} (hs : s.Inv) (hx : CycleBegun s x) (hw : HostEffect s x w) : w.Inv := by
  have hxInv := hs.cycleBegun hx
  cases hw with
  | none => exact hxInv
  | rejected e => exact hxInv.reject e
  | encoded v i r =>
    exact ⟨hxInv.busy_iff, Nat.zero_le 8, fun h => absurd rfl h, hxInv.unused_rest, hxInv.exec_sound⟩
  | issued i op E hidle hcommand hexec =>
    have hxidle : x.execState = .idle := hx.execState.trans hidle
    obtain ⟨hissued, hinit⟩ := exec_issuedBy hcommand hxidle hexec rfl
    exact hxInv.accept.issue hxidle hinit (soundFor_of_issuedBy hissued)

/-! ### The block's part -/

/-- A `Set` that `op` may make leaves the unused lines, and the lines `op` may not drive, as they are promised. -/
theorem Event.allowed_set {op : Opcode} {l : Line} {v : Bool} (h : (Event.set l v).allowed op = true) (ls : Lines) :
    (ls.pwrDwnN = true ∧ ls.sdio1 = false ∧ ls.sdio2 = false ∧ ls.sdio3 = false →
      (ls.set l v).pwrDwnN = true ∧ (ls.set l v).sdio1 = false ∧ (ls.set l v).sdio2 = false
        ∧ (ls.set l v).sdio3 = false)
    ∧ (op = .init → ls.csN = true ∧ ls.ioUpdate = false → (ls.set l v).csN = true ∧ (ls.set l v).ioUpdate = false)
    ∧ (op ≠ .init → (ls.set l v).ddsReset = ls.ddsReset) := by
  cases l <;> simp_all [Event.allowed]
  case csN | ioUpdate =>
    intro hop _ _
    simpa [hop] using h

theorem State.Inv.countDown {s : State} (hs : s.Inv) {op : Opcode} {E : List Event} {k k' : Nat}
    (hrun : s.execState = .running op E k) : ({ s with execState := .running op E k' } : State).Inv := by
  obtain ⟨hbusy, hcode, hsticky, hunused, hsound⟩ := hs
  rw [hrun] at hbusy hsound
  exact ⟨hbusy, hcode, hsticky, hunused, hsound⟩

theorem State.Inv.complete {s : State} (hs : s.Inv) {op : Opcode} {E : List Event} {k : Nat}
    (hrun : s.execState = .running op E k) (hE : setsOf E = []) : (s.complete op).Inv := by
  have hsound := hs.exec_sound
  rw [hrun] at hsound
  obtain ⟨-, -, hrest, -, -⟩ := hsound
  rw [hE] at hrest
  exact ⟨rfl, hs.code_le, hs.code_sticky, hs.unused_rest, hrest⟩

theorem State.Inv.emit {s : State} (hs : s.Inv) {op : Opcode} {E rest : List Event} {k : Nat} {l : Line} {v : Bool}
    (hrun : s.execState = .running op E k) (hnext : nextSet E = some (l, v, rest)) :
    ((s.emit l v).running op rest).Inv := by
  obtain ⟨hbusy, hcode, hsticky, hunused, hsound⟩ := hs
  rw [hrun] at hbusy hsound
  obtain ⟨hinit, hallowed, hrest, hlines, hreset⟩ := hsound
  obtain ⟨hsets, hmem, hset⟩ := nextSet_some hnext
  obtain ⟨hunused', hlines', hreset'⟩ := Event.allowed_set (hallowed _ hset) s.lines
  rw [hsets] at hrest
  exact ⟨hbusy, hcode, hsticky, hunused' hunused,
    ⟨hinit, fun e he => hallowed e (hmem e he), hrest, fun h => hlines' h (hlines h),
      fun h => (hreset' h).trans_ne (hreset h)⟩⟩

theorem State.Inv.stepBlock {w t : State} (hw : w.Inv) (h : stepBlock w = .next t) : t.Inv := by
  rcases stepBlock_next h with
    ⟨-, rfl⟩ | ⟨op, E, k, hrun, rfl⟩ | ⟨op, E, hrun, hnext, rfl⟩ | ⟨op, E, l, v, rest, hrun, hnext, hsame⟩
  · exact hw
  · exact hw.countDown hrun
  · exact hw.complete hrun (nextSet_none hnext)
  · exact (hw.emit hrun hnext).sameBlock hsame

/-! ### The step -/

/-- Settles O55: block reset, the host's part and the block's part each keep the invariant. -/
theorem stepKeepsInvariant : Obligations.StepKeepsInvariant := by
  intro s t hs h
  rcases step_cases h with ⟨-, rfl⟩ | ⟨-, x, w, hx, hw, ⟨-, rfl⟩ | ⟨-, hblock⟩⟩
  · exact .resetCycle s
  · exact hs.hostEffect hx hw
  · exact (hs.hostEffect hx hw).stepBlock hblock

end Sys2Proof.Machine
end

section
/-! PROOF. What the block's own part of a cycle does not look at: it runs on alike whatever the operand registers, the error
fields, `RESULT` and the host's side hold (10_state R23; 60_exceptions R213, R214). -/

namespace Sys2Proof.Machine

/-- `s` with the operand registers, the error fields, `RESULT` and the host's side of `p`: what the block's part of a cycle
neither reads nor writes. -/
def State.withAside (s p : State) : State :=
  { s with
    args := p.args, errSticky := p.errSticky, errCode := p.errCode, result := p.result, host := p.host,
    readData := p.readData }

theorem withAside_self (s : State) : s.withAside s = s := rfl

@[simp] theorem State.withAside_chip (s p : State) : (s.withAside p).chip = s.chip := rfl

@[simp] theorem State.withAside_lines (s p : State) : (s.withAside p).lines = s.lines := rfl

/-! ### Frames -/

theorem onWrite_withAside (s p : State) (r : ChipReg) (payload : List Byte) {write : State → State}
    (h : write (s.withAside p) = (write s).withAside p) :
    (s.withAside p).onWrite r payload write = (s.onWrite r payload write).withAside p := by
  unfold State.onWrite
  rw [apply_ite (State.withAside · p), apply_ite (State.withAside · p), ← h]
  rfl

theorem stage_withAside (s p : State) (r : ChipReg) (payload : List Byte) :
    (s.withAside p).stage r payload = (s.stage r payload).withAside p := by
  unfold State.stage
  rw [apply_ite (State.withAside · p)]
  rfl

theorem exec_frame_withAside {i : Instr} {s t : State} (hi : i.isCommand = false) (h : exec i s = .next t) (p : State) :
    exec i (s.withAside p) = .next (t.withAside p) := by
  obtain ⟨r, payload, rfl⟩ := exists_frame hi
  by_cases hr : r = .csr
  · subst hr
    cases h
    exact congrArg Host.Outcome.next (onWrite_withAside s p .csr payload rfl)
  · rw [exec_frame r hr] at h ⊢
    cases h
    exact congrArg Host.Outcome.next (onWrite_withAside s p r payload (stage_withAside s p r payload))

/-! ### The receiver -/

theorem endFrame_withAside (s p : State) : (s.withAside p).endFrame = s.endFrame.withAside p := by
  unfold State.endFrame
  rw [apply_ite (State.withAside · p)]
  rfl

theorem shiftIn_withAside (s p : State) :
    (s.withAside p).shiftIn = s.shiftIn.map (State.withAside · p) id := by
  unfold State.shiftIn
  simp only [State.withAside_chip, State.withAside_lines, apply_ite (Prod.map (State.withAside · p) id)]
  cases bufReg (s.chip.buf ++ [s.lines.sdio0]) with
  | none => rfl
  | some r =>
    simp only [apply_ite (Prod.map (State.withAside · p) id)]
    rfl

theorem receive_withAside (s p : State) (old : Lines) :
    (s.withAside p).receive old = (s.receive old).map (State.withAside · p) id := by
  unfold State.receive
  rw [endFrame_withAside, shiftIn_withAside]
  simp only [apply_ite (Prod.map (State.withAside · p) id)]
  rfl

/-! ### The block's part -/

theorem blockPhase_idle {s : State} (h : s.execState = .idle) : s.blockPhase = (s, none) := by
  simp only [State.blockPhase, h]

theorem blockPhase_countDown {s : State} {op : Opcode} {E : List Event} {k : Nat}
    (h : s.execState = .running op E (k + 1)) :
    s.blockPhase = ({ s with execState := .running op E k }, none) := by
  simp only [State.blockPhase, h]

theorem blockPhase_complete {s : State} {op : Opcode} {E : List Event} (h : s.execState = .running op E 0)
    (hnext : nextSet E = none) : s.blockPhase = (s.complete op, none) := by
  simp only [State.blockPhase, h, hnext]

theorem blockPhase_emit {s : State} {op : Opcode} {E rest : List Event} {l : Line} {v : Bool}
    (h : s.execState = .running op E 0) (hnext : nextSet E = some (l, v, rest)) :
    s.blockPhase = ((s.emit l v).running op rest).receive s.lines := by
  simp only [State.blockPhase, h, hnext]

theorem blockPhase_withAside (s p : State) :
    (s.withAside p).blockPhase = s.blockPhase.map (State.withAside · p) id := by
  rcases blockPhase_cases s with
    ⟨hexec, hb⟩ | ⟨op, E, k, hexec, hb⟩ | ⟨op, E, hexec, hnext, hb⟩ | ⟨op, E, l, v, rest, hexec, hnext, hb⟩
  · rw [hb]
    exact blockPhase_idle (s := s.withAside p) hexec
  · rw [hb]
    exact blockPhase_countDown (s := s.withAside p) hexec
  · rw [hb]
    exact blockPhase_complete (s := s.withAside p) hexec hnext
  · rw [hb, ← receive_withAside]
    exact blockPhase_emit (s := s.withAside p) hexec hnext

/-- What the block's part hands on is a frame. -/
theorem blockPhase_instr {s : State} {i : Instr} (h : s.blockPhase.2 = some i) : i.isCommand = false := by
  rcases blockPhase_cases s with ⟨-, hb⟩ | ⟨op, E, k, -, hb⟩ | ⟨op, E, -, -, hb⟩ | ⟨op, E, l, v, rest, -, -, hb⟩
  · rw [hb] at h
    cases h
  · rw [hb] at h
    cases h
  · rw [hb] at h
    cases h
  · rw [hb] at h
    exact receive_instr h

theorem stepBlock_withAside {s t : State} (h : stepBlock s = .next t) (p : State) :
    stepBlock (s.withAside p) = .next (t.withAside p) := by
  unfold stepBlock at h ⊢
  rw [blockPhase_withAside, Prod.map_fst, Prod.map_snd, id]
  cases hi : s.blockPhase.2 with
  | none =>
    rw [hi] at h
    cases h
    rfl
  | some i =>
    rw [hi] at h
    exact exec_frame_withAside (blockPhase_instr hi) h p

/-- The block's part leaves what stands aside of it as it was. -/
theorem stepBlock_keeps_aside {s t : State} (h : stepBlock s = .next t) : t.withAside s = t := by
  have hs := stepBlock_withAside h s
  rw [withAside_self, h] at hs
  exact (Host.Outcome.next.inj hs).symm

/-- A register write commutes with the block's part (R213). -/
theorem stepBlock_writeReg {s t : State} (h : stepBlock s = .next t) (offset : Nat) (v : Word) :
    stepBlock (s.writeReg offset v) = .next (t.writeReg offset v) := by
  have hs : s.writeReg offset v = s.withAside (s.writeReg offset v) := by
    rw [writeReg_eq]
    rfl
  have ht : t.writeReg offset v = t.withAside (s.writeReg offset v) := by
    rw [← stepBlock_keeps_aside h]
    unfold State.writeReg
    split <;> rfl
  rw [hs, stepBlock_withAside h, ht]

end Sys2Proof.Machine
end

section
/-! PROOF. The host window (20_memory R52): what its registers read, and what a write to each but `CMD` does (10_state R23
to R25). -/

namespace Sys2Proof.Machine

/-! ### Reads -/

/-- `STATUS` bit by bit (R24). -/
theorem getLsbD_statusWord (s : State) (k : Nat) :
    (statusWord s).getLsbD k =
      if k = 0 then s.busy else if k = 1 then s.initDone else if k = 2 then s.errSticky
      else if 4 ≤ k ∧ k < 8 then s.errCode.getLsbD (k - 4) else false := by
  simp only [statusWord, BitVec.getLsbD_append]
  rcases k with _ | _ | _ | _ | k
  · simp
  · simp
  · simp
  · simp
  · have hfield : k + 4 < 8 ↔ k < 4 := by omega
    simp [hfield]

theorem readReg_reserved (s : State) {offset : Nat} (h : 0x24 ≤ offset) : s.readReg offset = 0 := by
  unfold State.readReg
  split
  case h_9 => rfl
  all_goals omega

/-- Settles O34: `STATUS` bit by bit, every other register by the map. -/
theorem windowReads : Obligations.WindowReads := fun s =>
  ⟨rfl, rfl, rfl, rfl, rfl, rfl, rfl, getLsbD_statusWord s, rfl, fun _ h _ => readReg_reserved s h⟩

/-! ### Writes -/

/-- Past the operand registers the window ignores a write (R24, R25, R52). -/
theorem writeReg_ignored (s : State) {offset : Nat} (h : 0x1C ≤ offset) (v : Word) : s.writeReg offset v = s := by
  unfold State.writeReg
  split
  case h_7 => rfl
  all_goals omega

/-- An operand register reads the value written; every other register reads the same (R23). -/
theorem readReg_writeReg_arg (s : State) (i : Fin 6) (v : Word) (offset : Nat) :
    (s.writeReg (argOffset i) v).readReg offset = if offset = argOffset i then v else s.readReg offset := by
  by_cases h : offset = argOffset i
  · subst h
    fin_cases i <;> rfl
  · rw [if_neg h]
    unfold State.readReg
    split
    case h_7 =>
      rw [writeReg_eq]
      rfl
    case h_8 => rw [writeReg_eq]
    case h_9 => rfl
    all_goals fin_cases i <;> simp_all [argOffset, State.writeReg]

/-- Two programs that differ in their first operation alone begin the same cycle. -/
theorem beginCycle_host_head {s : State} {op : HostOp} {rest : List HostOp} (h : s.host = op :: rest) (op' : HostOp) :
    ({ s with host := op' :: rest } : State).beginCycle = s.beginCycle := by
  unfold State.beginCycle
  rw [h]
  rfl

/-- A step with a register write other than `CMD` is the step of a cycle without an access, and then the write. -/
theorem step_writeReg {s : State} {offset : Nat} {v : Word} {rest : List HostOp} (hr : s.rstN = true)
    (h0 : offset ≠ cmdOffset) (hlt : offset < 64) (h4 : offset % 4 = 0) (hhost : s.host = .write offset 4 v :: rest) :
    ∃ u, step { s with host := .idle :: rest } = .next u ∧ step s = .next (u.writeReg offset v) := by
  have hop : s.hostOp = .write offset 4 v := by simp [State.hostOp, hhost]
  have hphase : s.hostPhase = .next (s.beginCycle.writeReg offset v, none) := by
    unfold State.hostPhase
    rw [inResetCycle_false hr (by simp [hop]), hop]
    simp only [Bool.false_eq_true, if_false, onAccess_ok hlt h4, h0]
  have hidle : step { s with host := .idle :: rest } =
      if s.execState.isRunning then stepBlock s.beginCycle else .next s.beginCycle := by
    rw [← beginCycle_host_head hhost .idle]
    exact step_no_access (s := { s with host := .idle :: rest }) hr rfl
  rw [hidle]
  unfold step
  rw [hphase]
  cases hrun : s.execState.isRunning with
  | true =>
    obtain ⟨u, hu, -⟩ := stepBlock_cases s.beginCycle
    exact ⟨u, hu, by simpa [runFetched] using stepBlock_writeReg hu offset v⟩
  | false => exact ⟨_, rfl, rfl⟩

/-- Settles O36: the write takes place beside the block's part. -/
theorem argWriteTaken : Obligations.ArgWriteTaken := by
  intro s i v rest hr hhost
  obtain ⟨u, hidle, hwrite⟩ :=
    step_writeReg hr (by unfold cmdOffset; omega) (by omega) (by omega) hhost
  rw [writeReg_eq] at hwrite
  refine ⟨u, _, hidle, hwrite, fun offset => ?_⟩
  rw [← writeReg_eq]
  exact readReg_writeReg_arg u i v offset

/-- Settles O37: past the operand registers a register write does nothing. -/
theorem otherWritesIgnored : Obligations.OtherWritesIgnored := by
  intro s offset v rest hr hlow hhigh h4 hhost
  obtain ⟨u, hidle, hwrite⟩ := step_writeReg hr (by unfold cmdOffset; omega) hhigh h4 hhost
  exact ⟨u, hidle, by rw [hwrite, writeReg_ignored u hlow]⟩

end Sys2Proof.Machine
end

section
/-! PROOF. Accesses of the host that change no register: aligned reads, which only return data, and the accesses the block
does not support (20_memory R53). -/

namespace Sys2Proof.Machine

/-! ### Reads -/

/-- The block's part runs on alike beside other read data. -/
theorem stepBlock_readData {s t : State} (h : stepBlock s = .next t) (d : Option Word) :
    stepBlock { s with readData := d } = .next { t with readData := d } := by
  have ht : ({ t with readData := d } : State) = t.withAside { s with readData := d } := by
    rw [← stepBlock_keeps_aside h]
    rfl
  rw [ht]
  exact stepBlock_withAside h { s with readData := d }

theorem hostPhase_read {s : State} {offset : Nat} (hr : s.rstN = true) (hlt : offset < 64) (h4 : offset % 4 = 0)
    (hop : s.hostOp = .read offset 4) :
    s.hostPhase = .next ({ s.beginCycle with readData := some (s.readReg offset) }, none) := by
  unfold State.hostPhase
  rw [inResetCycle_false hr (by simp [hop]), hop]
  simp only [Bool.false_eq_true, if_false, onAccess_ok hlt h4]

/-- Settles O35: the read data stand aside of the block's part. -/
theorem readHasNoEffect : Obligations.ReadHasNoEffect := by
  intro s offset rest hr hlt h4 hhost
  have hidle : step { s with host := .idle :: rest } =
      if s.execState.isRunning then stepBlock s.beginCycle else .next s.beginCycle := by
    rw [← beginCycle_host_head hhost .idle]
    exact step_no_access (s := { s with host := .idle :: rest }) hr rfl
  rw [hidle]
  unfold step
  rw [hostPhase_read hr hlt h4 (by simp [State.hostOp, hhost])]
  cases hrun : s.execState.isRunning with
  | true =>
    obtain ⟨u, hu, -⟩ := stepBlock_cases s.beginCycle
    exact ⟨u, hu, stepBlock_readData hu (some (s.readReg offset))⟩
  | false => exact ⟨_, rfl, rfl⟩

/-! ### Accesses without a meaning -/

theorem onAccess_partial {α : Type} {offset width : Nat} (hlt : offset < 64) (h : width ≠ 4 ∨ offset % 4 ≠ 0)
    (k : Host.Outcome α Fault Refusal) : onAccess offset width k = .refused .hostPartialAccess := by
  unfold onAccess
  rw [if_neg (by omega), if_neg (by omega)]

theorem onAccess_outside {α : Type} {offset : Nat} (h : 64 ≤ offset) (width : Nat)
    (k : Host.Outcome α Fault Refusal) : onAccess offset width k = .fault .hostOutsideWindow :=
  if_pos h

/-- Out of block reset a bus access goes no further than `onAccess` lets it. -/
theorem hostPhase_access {s : State} {offset width : Nat} (hr : s.rstN = true)
    (h : s.hostOp = .read offset width ∨ ∃ v, s.hostOp = .write offset width v) :
    ∃ k, s.hostPhase = onAccess offset width k := by
  unfold State.hostPhase
  rcases h with hop | ⟨v, hop⟩
  · rw [inResetCycle_false hr (by simp [hop]), hop]
    exact ⟨_, rfl⟩
  · rw [inResetCycle_false hr (by simp [hop]), hop]
    exact ⟨_, rfl⟩

theorem step_access_partial {s : State} {offset width : Nat} (hr : s.rstN = true) (hlt : offset < 64)
    (hpartial : width ≠ 4 ∨ offset % 4 ≠ 0)
    (h : s.hostOp = .read offset width ∨ ∃ v, s.hostOp = .write offset width v) :
    step s = .refused .hostPartialAccess := by
  obtain ⟨k, hk⟩ := hostPhase_access hr h
  unfold step
  rw [hk, onAccess_partial hlt hpartial]

theorem step_access_outside {s : State} {offset width : Nat} (hr : s.rstN = true) (hge : 64 ≤ offset)
    (h : s.hostOp = .read offset width ∨ ∃ v, s.hostOp = .write offset width v) :
    step s = .fault .hostOutsideWindow := by
  obtain ⟨k, hk⟩ := hostPhase_access hr h
  unfold step
  rw [hk, onAccess_outside hge]

/-- Settles O38: the access form is judged before the register. -/
theorem otherAccessesStop : Obligations.OtherAccessesStop := by
  intro s offset width rest hr
  have hread (h : s.host = .read offset width :: rest) : s.hostOp = .read offset width := by simp [State.hostOp, h]
  have hwrite (v : Word) (h : s.host = .write offset width v :: rest) : s.hostOp = .write offset width v := by
    simp [State.hostOp, h]
  constructor
  · intro hlt hpartial
    exact ⟨fun h => step_access_partial hr hlt hpartial (.inl (hread h)),
      fun v h => step_access_partial hr hlt hpartial (.inr ⟨v, hwrite v h⟩)⟩
  · intro hge
    exact ⟨fun h => step_access_outside hr hge (.inl (hread h)),
      fun v h => step_access_outside hr hge (.inr ⟨v, hwrite v h⟩)⟩

end Sys2Proof.Machine
end

section
/-! PROOF. What a complete write does to the receiver's registers (20_memory R59, R67, R69): the register bank holds the
payload it is written, and a frame stages it where R69 says. -/

namespace Sys2Proof.Machine

/-! ### Payloads and their values -/

theorem beBytes_length (n v : Nat) : (beBytes n v).length = n := by
  induction n with
  | zero => rfl
  | succ n ih => simp [beBytes, ih]

/-- The low `n` bytes are a function of the value modulo `256^n`. -/
theorem beBytes_congr {n v w : Nat} (h : v % 256 ^ n = w % 256 ^ n) : beBytes n v = beBytes n w := by
  induction n with
  | zero => rfl
  | succ n ih =>
    have hshift (x : Nat) : x >>> (8 * n) = x / 256 ^ n := by
      rw [Nat.shiftRight_eq_div_pow, Nat.pow_mul]
    have htop : v / 256 ^ n % 256 = w / 256 ^ n % 256 := by
      rw [← Nat.mod_mul_right_div_self, ← Nat.mod_mul_right_div_self, ← Nat.pow_succ, h]
    have hlow : v % 256 ^ n = w % 256 ^ n := by
      have hdvd : 256 ^ n ∣ 256 ^ (n + 1) := ⟨256, Nat.pow_succ ..⟩
      rw [← Nat.mod_mod_of_dvd v hdvd, h, Nat.mod_mod_of_dvd w hdvd]
    rw [beBytes, beBytes, ih hlow, hshift, hshift]
    exact congrArg (· :: _) (BitVec.eq_of_toNat_eq (by simpa using htop))

theorem ofBytes_foldl (p : List Byte) (acc : Nat) :
    p.foldl (fun acc b => acc * 256 + b.toNat) acc = acc * 256 ^ p.length + ofBytes p := by
  unfold ofBytes
  induction p generalizing acc with
  | nil => simp
  | cons b p ih =>
    rw [List.foldl_cons, List.foldl_cons, ih, ih (0 * 256 + b.toNat), List.length_cons]
    ring

theorem ofBytes_cons (b : Byte) (p : List Byte) : ofBytes (b :: p) = b.toNat * 256 ^ p.length + ofBytes p := by
  rw [ofBytes, List.foldl_cons, ofBytes_foldl]
  simp

theorem ofBytes_lt (p : List Byte) : ofBytes p < 256 ^ p.length := by
  induction p with
  | nil => decide
  | cons b p ih =>
    rw [ofBytes_cons, List.length_cons, Nat.pow_succ]
    have := b.isLt
    nlinarith

/-- Reading a payload big-endian and writing the value out again gives the payload back (R9, R59). -/
theorem beBytes_ofBytes (p : List Byte) : beBytes p.length (ofBytes p) = p := by
  induction p with
  | nil => rfl
  | cons b p ih =>
    have htop : ofBytes (b :: p) >>> (8 * p.length) = b.toNat := by
      rw [Nat.shiftRight_eq_div_pow, Nat.pow_mul, ofBytes_cons]
      have := Nat.div_eq_of_lt (ofBytes_lt p)
      norm_num
      rw [Nat.mul_comm, Nat.mul_add_div (by positivity), this, Nat.add_zero]
    have hlow : beBytes p.length (ofBytes (b :: p)) = beBytes p.length (ofBytes p) :=
      beBytes_congr (by rw [ofBytes_cons, Nat.mul_comm, Nat.mul_add_mod])
    rw [List.length_cons, beBytes, htop, hlow, ih, BitVec.ofNat_toNat, BitVec.setWidth_eq]

/-- A register as wide as the payload holds all of it. -/
theorem beBytes_register {n w : Nat} {p : List Byte} (hp : p.length = n) (hw : w = 8 * n) :
    beBytes n (BitVec.ofNat w (ofBytes p)).toNat = p := by
  subst hp hw
  have hmod : (BitVec.ofNat (8 * p.length) (ofBytes p)).toNat = ofBytes p := by
    rw [BitVec.toNat_ofNat, Nat.pow_mul]
    exact Nat.mod_eq_of_lt (ofBytes_lt p)
  rw [hmod, beBytes_ofBytes]

/-! ### Banks -/

/-- A bank holds, in the register written, the payload, and in every other what it held (R60, R67). -/
theorem readBank_writeBank {r : ChipReg} (hr : r ≠ .csr) {p : List Byte} (hp : p.length = r.width) (b : RegBank)
    (r' : ChipReg) : readBank (writeBank b r p) r' = if r' = r then p else readBank b r' := by
  by_cases h : r' = r
  · subst h
    rw [if_pos rfl]
    cases r'
    case csr => exact absurd rfl hr
    all_goals exact beBytes_register hp rfl
  · rw [if_neg h]
    cases r <;> cases r' <;> first | rfl | exact absurd rfl h

/-! ### Writes -/

theorem chipInReset_false {s : State} (h : Claims.ChipReadable s) : s.chipInReset = false := by
  simpa [State.chipInReset] using h.1

/-- Settles O51: with the wire readable the write is `writeCsr`. -/
theorem csrFrameActsAtOnce : Obligations.CsrFrameActsAtOnce := by
  intro s v hread
  have hlost : (v &&& 0x0F != 0) = decide (v &&& 0x0F ≠ 0) := Bool.eq_iff_iff.mpr (by simp)
  rw [exec_frCsr, State.onWrite_writes (chipInReset_false hread) hread.2 rfl, State.writeCsr, List.headD_cons, hlost]

/-- With the wire readable the frame of a register other than `CSR` stages its payload. -/
theorem exec_frame_stages {s : State} (hread : Claims.ChipReadable s) {r : ChipReg} (hr : r ≠ .csr) {p : List Byte}
    (hp : p.length = r.width) : exec (r.frame p) s = .next (s.stage r p) := by
  rw [exec_frame r hr, State.onWrite_writes (chipInReset_false hread) hread.2 hp]

theorem stage_scoped {s : State} {r : ChipReg} (h : r ∈ s.cfg.channelScoped) (p : List Byte) :
    s.stage r p = { s with chip := { s.chip with
      staged := Vector.ofFn fun c : Fin 4 =>
        if channelSelected s.chip c then writeBank s.chip.staged[c] r p else s.chip.staged[c] } } :=
  if_pos h

theorem stage_global {s : State} {r : ChipReg} (h : r ∉ s.cfg.channelScoped) (p : List Byte) :
    s.stage r p = { s with chip := { s.chip with stagedG := writeBank s.chip.stagedG r p } } :=
  if_neg h

theorem stages_frame {r : ChipReg} (hr : r ≠ .csr) (p : List Byte) : Claims.Stages (r.frame p) r p := by
  intro s hread hp
  refine ⟨s.stage r p, exec_frame_stages hread hr hp, fun hscoped => ?_, fun hglobal => ?_, ?_⟩
  · rw [stage_scoped hscoped]
    refine ⟨fun c r' => ?_, rfl⟩
    cases hsel : channelSelected s.chip c with
    | true => simp [hsel, show s.chip.csr.getLsbD (4 + c.val) = true from hsel, readBank_writeBank hr hp]
    | false => simp [hsel, show s.chip.csr.getLsbD (4 + c.val) = false from hsel]
  · rw [stage_global hglobal]
    exact ⟨readBank_writeBank hr hp s.chip.stagedG, rfl⟩
  · by_cases h : r ∈ s.cfg.channelScoped
    · rw [stage_scoped h]
    · rw [stage_global h]

/-- Settles O52: `stages_frame` at each register. -/
theorem framesStage : Obligations.FramesStage := fun p =>
  ⟨stages_frame (r := .fr1) (by decide) p, stages_frame (r := .fr2) (by decide) p,
    stages_frame (r := .cfr) (by decide) p, stages_frame (r := .cftw) (by decide) p,
    stages_frame (r := .cpow) (by decide) p, stages_frame (r := .acr) (by decide) p,
    stages_frame (r := .lsrr) (by decide) p, stages_frame (r := .rdw) (by decide) p,
    stages_frame (r := .fdw) (by decide) p, stages_frame (r := .cw1) (by decide) p⟩

end Sys2Proof.Machine
end

section
/-! PROOF. The receiver's reading of each edge while the wire is readable (20_memory R68, R70, R257), and the steps that
make those edges; and that no frame and no update pulse falls into a chip reset (R71). -/

namespace Sys2Proof.Machine

open Claims (ChipReadable)

/-! ### Bits and bytes on the wire -/

theorem bitsToByte_byteBits : ∀ b : Byte, bitsToByte (byteBits b) = b := by decide

theorem frameBits_cons (b : Byte) (bytes : List Byte) : frameBits (b :: bytes) = byteBits b ++ frameBits bytes :=
  List.flatMap_cons

theorem bitsToBytes_frameBits (bytes : List Byte) : bitsToBytes bytes.length (frameBits bytes) = bytes := by
  induction bytes with
  | nil => rfl
  | cons b rest ih =>
    have htake : (byteBits b ++ frameBits rest).take 8 = byteBits b := List.take_left' rfl
    have hdrop : (byteBits b ++ frameBits rest).drop 8 = frameBits rest := List.drop_left' rfl
    rw [frameBits_cons, List.length_cons, bitsToBytes, htake, hdrop, bitsToByte_byteBits, ih]

theorem ofAddr?_addr (r : ChipReg) : ChipReg.ofAddr? r.addr = some r := by
  cases r <;> rfl

theorem decodeFrame_addr {r : ChipReg} {p : List Byte} (hp : p.length = r.width) :
    decodeFrame (r.addr :: p) = .ok (r.frame p) := by
  simp [decodeFrame, ofAddr?_addr, hp]

/-- The first 8 bits of a frame tell its register (R87). -/
theorem bufReg_frameBits {a : Byte} {p : List Byte} {buf rest : List Bool} (h8 : 8 ≤ buf.length)
    (h : buf ++ rest = frameBits (a :: p)) : bufReg buf = ChipReg.ofAddr? a := by
  have htake : buf.take 8 = byteBits a := by
    have hbuf : (buf ++ rest).take 8 = buf.take 8 := List.take_append_of_le_length h8
    rw [← hbuf, h, frameBits_cons]
    exact List.take_left' rfl
  rw [bufReg, htake, bitsToByte_byteBits]

theorem bufFrame_frameBits {bytes : List Byte} {i : Instr} (h : decodeFrame bytes = .ok i) :
    bufFrame (frameBits bytes) = some i := by
  have hlen : (frameBits bytes).length / 8 = bytes.length := by rw [frameBits_length]; omega
  simp only [bufFrame, hlen, bitsToBytes_frameBits, h]

theorem bufComplete_frameBits {r : ChipReg} {p : List Byte} (hp : p.length = r.width) :
    bufComplete (frameBits (r.addr :: p)) = true := by
  have hlen : (frameBits (r.addr :: p)).length = 8 * (1 + r.width) := by
    rw [frameBits_length, List.length_cons, hp, Nat.add_comm]
  have hreg := bufReg_frameBits (rest := []) (by omega) (List.append_nil (frameBits (r.addr :: p)))
  simp [bufComplete, hreg, ofAddr?_addr, hlen]

/-! ### Bits of a frame shifted in -/

/-- The last bit of a frame hands it on (R68). -/
theorem shiftIn_complete {s : State} {bytes : List Byte} {i : Instr}
    (hbuf : s.chip.buf ++ [s.lines.sdio0] = frameBits bytes) (hdecode : decodeFrame bytes = .ok i) :
    s.shiftIn = ({ s with chip := { s.chip with buf := frameBits bytes } }, some i) := by
  obtain ⟨a, p, r, rfl, hr, hp, -⟩ := decodeFrame_ok hdecode
  have hlen : (frameBits (a :: p)).length = 8 * (1 + r.width) := by
    rw [frameBits_length, List.length_cons, hp, Nat.add_comm]
  have hreg : bufReg (frameBits (a :: p)) = some r :=
    (bufReg_frameBits (by omega) (List.append_nil _)).trans hr
  unfold State.shiftIn
  simp only [hbuf, hreg, bufFrame_frameBits hdecode]
  rw [if_neg (by omega), if_neg (by omega), if_pos hlen]

/-- A bit before the last joins the buffer (R68). -/
theorem shiftIn_partial {s : State} {r : ChipReg} {p : List Byte} {rest : List Bool} (hp : p.length = r.width)
    (hbuf : (s.chip.buf ++ [s.lines.sdio0]) ++ rest = frameBits (r.addr :: p)) (hrest : rest ≠ []) :
    s.shiftIn = ({ s with chip := { s.chip with buf := s.chip.buf ++ [s.lines.sdio0] } }, none) := by
  have hlen := congrArg List.length hbuf
  rw [frameBits_length, List.length_cons, hp, List.length_append] at hlen
  have hpos := List.length_pos_iff.mpr hrest
  unfold State.shiftIn
  dsimp only
  by_cases h8 : (s.chip.buf ++ [s.lines.sdio0]).length < 8
  · rw [if_pos h8]
  · rw [if_neg h8, bufReg_frameBits (by omega) hbuf, ofAddr?_addr]
    dsimp only
    rw [if_pos (by omega)]

/-! ### The edges of a frame and the update edge (R68, R70) -/

theorem receive_csFalls {s : State} {old : Lines} (hread : ChipReadable s) (hold : old.csN = true)
    (hnew : s.lines.csN = false) : s.receive old = (s.beginFrame, none) := by
  simp [State.receive, receiverEdge, chipInReset_false hread, hread.2, hold, hnew]

theorem receive_csRises {s : State} {old : Lines} (hread : ChipReadable s) (hold : old.csN = false)
    (hnew : s.lines.csN = true) : s.receive old = (s.endFrame, none) := by
  simp [State.receive, receiverEdge, chipInReset_false hread, hread.2, hold, hnew]

theorem receive_sclkRises {s : State} {old : Lines} (hread : ChipReadable s) (hcs : s.lines.csN = old.csN)
    (hlow : s.lines.csN = false) (hold : old.sclk = false) (hnew : s.lines.sclk = true) :
    s.receive old = s.shiftIn := by
  simp [State.receive, receiverEdge, chipInReset_false hread, hread.2, ← hcs, hlow, hold, hnew]

theorem receive_updateRises {s : State} {old : Lines} (hread : ChipReadable s) (hcs : s.lines.csN = old.csN)
    (hsclk : s.lines.sclk = old.sclk) (hold : old.ioUpdate = false) (hnew : s.lines.ioUpdate = true) :
    s.receive old = (s.updateChip, none) := by
  simp [State.receive, receiverEdge, chipInReset_false hread, hread.2, hcs, hsclk, hold, hnew]

/-! ### The block's part when a `Set` is due -/

section

variable {s : State} {op : Opcode} {E rest : List Event} {l : Line} {v : Bool}

/-- The `Set` is emitted, the receiver sees it, and the frame it completed, if it did, runs. -/
theorem stepBlock_emit {t : State} {i : Option Instr} (h : s.execState = .running op E 0)
    (hnext : nextSet E = some (l, v, rest)) (hreceive : ((s.emit l v).running op rest).receive s.lines = (t, i)) :
    stepBlock s = runFetched i t := by
  rw [stepBlock, blockPhase_emit h hnext, hreceive]

/-- A cycle without an access is the block's part, out of chip reset, of a state that differs in the clock and the host's
side. -/
theorem step_due (hr : s.rstN = true) (hop : s.hostOp = .idle) (h : s.execState = .running op E 0)
    (hreset : s.chipInReset = false) :
    step s = stepBlock { s with cycle := s.cycle + 1, host := s.host.tail, readData := none } := by
  have hrun : s.execState.isRunning = true := by rw [h]; rfl
  rw [step_no_access hr hop, if_pos hrun, beginCycle_eq hreset]

theorem stepBlock_lastBit {bytes : List Byte} {i : Instr} (hread : ChipReadable s)
    (h : s.execState = .running op E 0) (hnext : nextSet E = some (.sclk, true, rest)) (hcs : s.lines.csN = false)
    (hsclk : s.lines.sclk = false) (hbuf : s.chip.buf ++ [s.lines.sdio0] = frameBits bytes)
    (hdecode : decodeFrame bytes = .ok i) :
    stepBlock s = exec i
      { (s.emit .sclk true).running op rest with chip := { s.chip with buf := frameBits bytes } } := by
  let t := (s.emit .sclk true).running op rest
  have hshift : t.shiftIn = ({ t with chip := { t.chip with buf := frameBits bytes } }, some i) :=
    shiftIn_complete hbuf hdecode
  exact stepBlock_emit h hnext ((receive_sclkRises (s := t) (old := s.lines) hread rfl hcs hsclk rfl).trans hshift)

theorem stepBlock_updateRises (hread : ChipReadable s) (h : s.execState = .running op E 0)
    (hnext : nextSet E = some (.ioUpdate, true, rest)) (hlow : s.lines.ioUpdate = false) :
    stepBlock s = .next ((s.emit .ioUpdate true).running op rest).updateChip :=
  stepBlock_emit h hnext (receive_updateRises (s := (s.emit .ioUpdate true).running op rest) (old := s.lines)
    hread rfl rfl hlow rfl)

end

/-- Settles O6: the clock edge shifts in the frame's last bit. -/
theorem stepRunsFrame : Obligations.StepRunsFrame := by
  intro s op E rest bytes i hr hop hexec hnext hread hcs hsclk hbuf hdecode
  rw [step_due hr hop hexec (chipInReset_false hread), beginCycle_eq (chipInReset_false hread)]
  exact stepBlock_lastBit (s := { s with cycle := s.cycle + 1, host := s.host.tail, readData := none })
    hread hexec hnext hcs hsclk hbuf hdecode

/-- Settles O53: the update edge is no edge of a frame. -/
theorem updateEdgeCommits : Obligations.UpdateEdgeCommits := by
  intro s op E rest hr hop hexec hnext hlow hread
  rw [step_due hr hop hexec (chipInReset_false hread)]
  exact ⟨_, stepBlock_updateRises (s := { s with cycle := s.cycle + 1, host := s.host.tail, readData := none })
    hread hexec hnext hlow, rfl, rfl⟩

/-! ### Chip reset -/

/-- Settles O56: only `INIT` drives `DDS_RESET`, and it keeps `CS_N` and `IO_UPDATE` at rest. -/
theorem noFrameInChipReset : Obligations.NoFrameInChipReset := by
  intro s hinv hreset
  have hsound := hinv.exec_sound
  cases hexec : s.execState with
  | idle =>
    rw [hexec] at hsound
    exact absurd hreset ((Lines.atRest_iff s.cfg s.lines).mp hsound).2.2
  | running op E k =>
    rw [hexec] at hsound
    obtain ⟨-, -, -, hinit, hother⟩ := hsound
    by_cases hop : op = .init
    · exact hinit hop
    · exact absurd hreset (hother hop)

end Sys2Proof.Machine
end

section
/-! PROOF. A running command under a host that makes only idle cycles, polls and reads: it waits out its gaps, emits its
`Set`s in order and completes (60_exceptions R214, 70_reset_and_hazards R250). -/

namespace Sys2Proof.Machine

/-! ### Runs of steps -/

theorem runFor_succ {s t : State} (h : step s = .next t) (n : Nat) : runFor (n + 1) s = runFor n t := by
  rw [runFor, h]

theorem runFor_one (s : State) : runFor 1 s = step s := by
  rw [runFor]
  cases step s <;> rfl

theorem runFor_add {s t : State} {n : Nat} (h : runFor n s = .next t) (m : Nat) :
    runFor (n + m) s = runFor m t := by
  induction n generalizing s with
  | zero =>
    cases h
    rw [Nat.zero_add]
  | succ n ih =>
    cases hstep : step s with
    | next u =>
      rw [Nat.add_right_comm, runFor_succ hstep]
      rw [runFor_succ hstep] at h
      exact ih h
    | fault f => simp [runFor, hstep] at h
    | refused r => simp [runFor, hstep] at h

/-! ### What a quiet run leaves alone -/

/-- `op` runs with the `Set`s `sets` still to emit, and the host's program holds only idle cycles, polls and reads. -/
structure Playing (op : Opcode) (sets : List (Line × Bool)) (s : State) : Prop where
  rstN : s.rstN = true
  quiet : ∀ a ∈ s.host, a.quiet = true
  running : ∃ E k, s.execState = .running op E k ∧ setsOf E = sets

theorem Playing.isRunning {op : Opcode} {sets : List (Line × Bool)} {s : State} (h : Playing op sets s) :
    s.execState.isRunning = true := by
  obtain ⟨E, k, hexec, -⟩ := h.running
  rw [hexec]
  rfl

/-- `t` is `s` after the running command has emitted `sets`: the block's registers stand still, a quiet program stays quiet,
and a `WAIT_IDLE` at its head polls on. -/
structure Emitted (s : State) (sets : List (Line × Bool)) (t : State) : Prop where
  block : t = { s with
    lines := applySets s.lines sets, execState := t.execState, host := t.host, readData := t.readData, chip := t.chip,
    chipLost := t.chipLost, cycle := t.cycle, trace := t.trace, draws := t.draws }
  trace : traceSets t.trace = traceSets s.trace ++ sets
  quiet : (∀ a ∈ s.host, a.quiet = true) → ∀ a ∈ t.host, a.quiet = true
  polls : s.busy = true → s.hostOp = .waitIdle → t.host = s.host

section

variable {s t u : State} {S T : List (Line × Bool)}

theorem Emitted.lines (h : Emitted s S t) : t.lines = applySets s.lines S := (congrArg State.lines h.block :)

theorem Emitted.cfg (h : Emitted s S t) : t.cfg = s.cfg := (congrArg State.cfg h.block :)

theorem Emitted.rstN (h : Emitted s S t) : t.rstN = s.rstN := (congrArg State.rstN h.block :)

theorem Emitted.busy (h : Emitted s S t) : t.busy = s.busy := (congrArg State.busy h.block :)

theorem Emitted.initDone (h : Emitted s S t) : t.initDone = s.initDone := (congrArg State.initDone h.block :)

theorem Emitted.chipInReset (h : Emitted s [] t) : t.chipInReset = s.chipInReset := by
  rw [State.chipInReset, h.lines, h.cfg]
  rfl

theorem Emitted.refl (s : State) : Emitted s [] s where
  block := rfl
  trace := (List.append_nil _).symm
  quiet := id
  polls _ _ := rfl

theorem Emitted.trans (h : Emitted s S t) (k : Emitted t T u) : Emitted s (S ++ T) u where
  block := by
    rw [k.block, h.block, applySets_append]
  trace := by rw [k.trace, h.trace, List.append_assoc]
  quiet hq := k.quiet (h.quiet hq)
  polls hbusy hpoll := by
    have ht := h.polls hbusy hpoll
    have hpoll' : t.hostOp = .waitIdle := by rw [State.hostOp, ht, ← State.hostOp, hpoll]
    rw [k.polls (h.busy.trans hbusy) hpoll', ht]

/-- `t` is `s` some cycles later, with nothing emitted; the chip, out of reset, holds what it held. -/
structure Waited (s t : State) : Prop where
  emitted : Emitted s [] t
  chip : s.chipInReset = false → t.chip = s.chip ∧ t.chipLost = s.chipLost

theorem Waited.trans (h : Waited s t) (k : Waited t u) : Waited s u where
  emitted := h.emitted.trans k.emitted
  chip hreset := by
    obtain ⟨hchip, hlost⟩ := h.chip hreset
    obtain ⟨hchip', hlost'⟩ := k.chip (h.emitted.chipInReset.trans hreset)
    exact ⟨hchip'.trans hchip, hlost'.trans hlost⟩

theorem Waited.execState (h : Waited s t) (e : Exec) : Waited s { t with execState := e } where
  emitted :=
    { block := by rw [h.emitted.block]
      trace := h.emitted.trace
      quiet := h.emitted.quiet
      polls := h.emitted.polls }
  chip := h.chip

end

/-! ### Steps of a quiet run -/

section

variable {s t : State} {op : Opcode} {S : List (Line × Bool)} {E rest : List Event} {l : Line} {v : Bool} {k : Nat}

/-- A step of a quiet run is the block's part of a state that has waited. -/
theorem Playing.step (h : Playing op S s) :
    ∃ x, step s = stepBlock x ∧ x.execState = s.execState ∧ Waited s x := by
  obtain ⟨d, H, hphase, hquiet, hpolls⟩ := hostPhase_quiet h.rstN h.quiet
  have hbegin := beginCycle_sameBlock s
  unfold SameBlock at hbegin
  refine ⟨{ s.beginCycle with readData := d, host := H }, ?_, (congrArg State.execState hbegin :), ?_, ?_⟩
  · unfold Machine.step
    simp [hphase, runFetched, h.isRunning]
  · exact
      { block := by rw [hbegin]; rfl
        trace := by rw [List.append_nil]; exact (congrArg (fun x : State => traceSets x.trace) hbegin :)
        quiet := fun _ => hquiet
        polls := fun hbusy hpoll => hpolls hpoll hbusy }
  · intro hreset
    rw [beginCycle_eq hreset]
    exact ⟨rfl, rfl⟩

theorem stepBlock_countDown (h : s.execState = .running op E (k + 1)) :
    stepBlock s = .next { s with execState := .running op E k } := by
  rw [stepBlock, blockPhase_countDown h]
  rfl

theorem stepBlock_complete (h : s.execState = .running op E 0) (hE : setsOf E = []) :
    stepBlock s = .next (s.complete op) := by
  have hnext : nextSet E = none := by
    cases hn : nextSet E with
    | none => rfl
    | some a => simp [(nextSet_some (l := a.1) (v := a.2.1) (rest := a.2.2) hn).1] at hE
  rw [stepBlock, blockPhase_complete h hnext]
  rfl

theorem stepBlock_set (h : s.execState = .running op E 0) (hnext : nextSet E = some (l, v, rest)) :
    ∃ t, stepBlock s = .next t ∧ SameBlock ((s.emit l v).running op rest) t := by
  obtain ⟨t, ht, hcases⟩ := stepBlock_cases s
  refine ⟨t, ht, ?_⟩
  rcases hcases with ⟨h', -⟩ | ⟨_, _, _, h', -⟩ | ⟨_, _, h', hn, -⟩ | ⟨_, _, _, _, _, h', hn, hsame⟩
  · cases h.symm.trans h'
  · cases h.symm.trans h'
  · cases h.symm.trans h'
    cases hnext.symm.trans hn
  · cases h.symm.trans h'
    cases hnext.symm.trans hn
    exact hsame

/-- The gap passes, and then the block's part has an event or the completion due (R250). -/
theorem Playing.run_until_due (h : Playing op S s) (hexec : s.execState = .running op E k) :
    ∃ n x, runFor n s = stepBlock x ∧ x.execState = .running op E 0 ∧ Waited s x := by
  obtain ⟨x, hstep, hx, hwait⟩ := h.step
  rw [hexec] at hx
  induction k generalizing s x with
  | zero => exact ⟨1, x, (runFor_one s).trans hstep, hx, hwait⟩
  | succ k ih =>
    let t : State := { x with execState := .running op E k }
    have hst : Machine.step s = .next t := hstep.trans (stepBlock_countDown hx)
    have hwt : Waited s t := hwait.execState (.running op E k)
    have ht : Playing op S t :=
      { rstN := hwait.emitted.rstN.trans h.rstN
        quiet := hwait.emitted.quiet h.quiet
        running := by
          obtain ⟨E', k', hexec', hE'⟩ := h.running
          cases hexec.symm.trans hexec'
          exact ⟨E, k, rfl, hE'⟩ }
    obtain ⟨y, hstep', hy, hwait'⟩ := ht.step
    obtain ⟨n, z, hrun, hz, hw⟩ := ih ht rfl y hstep' hy hwait'
    exact ⟨n + 1, z, (runFor_succ hst n).trans hrun, hz, hwt.trans hw⟩

theorem nextSet_of_setsOf (h : setsOf E = (l, v) :: S) : ∃ rest, nextSet E = some (l, v, rest) ∧ setsOf rest = S := by
  cases hn : nextSet E with
  | none => simp [nextSet_none hn] at h
  | some a =>
    obtain ⟨m, w, rest⟩ := a
    have hsets := (nextSet_some hn).1
    rw [h] at hsets
    cases hsets
    exact ⟨rest, rfl, rfl⟩

/-- The next `Set` is emitted, by the block's part of a state that has waited until it was due. -/
theorem Playing.emit (h : Playing op ((l, v) :: S) s) :
    ∃ n x E rest t, runFor n s = .next t ∧ Waited s x ∧ x.execState = .running op E 0
      ∧ nextSet E = some (l, v, rest) ∧ stepBlock x = .next t ∧ Emitted s [(l, v)] t ∧ Playing op S t := by
  obtain ⟨E, k, hexec, hE⟩ := h.running
  obtain ⟨rest, hnext, hrest⟩ := nextSet_of_setsOf hE
  obtain ⟨n, x, hrun, hx, hwait⟩ := h.run_until_due hexec
  obtain ⟨t, ht, hsame⟩ := stepBlock_set hx hnext
  have hhost : t.host = x.host := (congrArg State.host hsame :)
  have hset : Emitted x [(l, v)] t :=
    { block := by unfold SameBlock at hsame; rw [hsame]; rfl
      trace := by
        rw [(congrArg State.trace hsame :)]
        exact traceSets_append ..
      quiet := fun hq => hhost ▸ hq
      polls := fun _ _ => hhost }
  have hemitted := hwait.emitted.trans hset
  exact ⟨n, x, E, rest, t, hrun.trans ht, hwait, hx, hnext, ht, hemitted,
    { rstN := hemitted.rstN.trans h.rstN
      quiet := hemitted.quiet h.quiet
      running := ⟨rest, _, (congrArg State.execState hsame :), hrest⟩ }⟩

/-- With every `Set` emitted the command completes (R214). -/
theorem Playing.complete (h : Playing op [] s) :
    ∃ n x, runFor n s = .next (x.complete op) ∧ Waited s x := by
  obtain ⟨E, k, hexec, hE⟩ := h.running
  obtain ⟨n, x, hrun, hx, hwait⟩ := h.run_until_due hexec
  exact ⟨n, x, hrun.trans (stepBlock_complete hx hE), hwait⟩

theorem Playing.completes (h : Playing op S s) : ∃ n x, runFor n s = .next (x.complete op) ∧ Emitted s S x := by
  induction S generalizing s with
  | nil =>
    obtain ⟨n, x, hrun, hwait⟩ := h.complete
    exact ⟨n, x, hrun, hwait.emitted⟩
  | cons e S ih =>
    obtain ⟨n, -, -, -, t, hrun, -, -, -, -, hemitted, ht⟩ := h.emit
    obtain ⟨m, x, hrun', hemitted'⟩ := ih ht
    exact ⟨n + m, x, (runFor_add hrun m).trans hrun', hemitted.trans hemitted'⟩

end

/-- Settles O57: `Set` by `Set`, then the completion. -/
theorem runningCommandCompletes : Obligations.RunningCommandCompletes := by
  intro s op E k hr hquiet hexec
  have h : Playing op (setsOf E) s := ⟨hr, hquiet, E, k, hexec, rfl⟩
  obtain ⟨n, x, hrun, hx⟩ := h.completes
  have hinit : (op == .init) = decide (op = .init) := Bool.eq_iff_iff.mpr (by simp)
  refine ⟨n, x.complete op, hrun, rfl, rfl, ?_, hx.trace, hx.lines, (congrArg State.args hx.block :),
    (congrArg State.result hx.block :), (congrArg State.errCode hx.block :), (congrArg State.errSticky hx.block :),
    hx.cfg, hx.polls⟩
  rw [State.complete_initDone, hinit, hx.initDone]

end Sys2Proof.Machine
end

section
/-! PROOF. From the wire to the receiver's registers: what the receiver holds after the `Set`s of a frame and of the update
pulse, when a quiet run emits them (20_memory R68 to R70, R257; 41_transport R141; 42_channel_controller R163). -/

namespace Sys2Proof.Machine

open Claims (ChipReadable)

/-! ### A complete write -/

/-- The receiver after a complete write of payload `p` to register `r` (R69). -/
def writeChip (c : Cfg) (k : Chip) (r : ChipReg) (p : List Byte) : Chip :=
  if r = .csr then { k with csr := p.headD 0 }
  else if r ∈ c.channelScoped then
    { k with
      staged := Vector.ofFn fun i : Fin 4 => if channelSelected k i then writeBank k.staged[i] r p else k.staged[i] }
  else { k with stagedG := writeBank k.stagedG r p }

/-- The receiver in the middle of a frame, with the bits `buf` taken down (R68). -/
def openFrame (k : Chip) (buf : List Bool) : Chip := { k with inFrame := true, buf := buf }

/-- A write looks at no bit of the wire. -/
theorem writeChip_openFrame (c : Cfg) (k : Chip) (r : ChipReg) (p : List Byte) (buf : List Bool) :
    writeChip c (openFrame k buf) r p = openFrame (writeChip c k r p) buf := by
  unfold writeChip
  split
  · rfl
  · split
    · rfl
    · rfl

/-- With the wire readable, and a `CSR` payload as R257 asks, a frame is such a write and leaves the wire readable. -/
theorem exec_frame_write {s : State} (hread : ChipReadable s) {r : ChipReg} {p : List Byte} (hp : p.length = r.width)
    (hcsr : r = .csr → p.headD 0 &&& 0x0F = 0) :
    ∃ u, exec (r.frame p) s = .next u ∧ u.chip = writeChip s.cfg s.chip r p ∧ u.chipLost = false := by
  unfold writeChip
  by_cases hr : r = .csr
  · subst hr
    rw [ChipReg.frame, exec_frCsr, State.onWrite_writes (chipInReset_false hread) hread.2 hp]
    exact ⟨_, rfl, rfl, by rw [State.writeCsr_chipLost, hcsr rfl]; rfl⟩
  · rw [exec_frame_stages hread hr hp, if_neg hr]
    by_cases hscoped : r ∈ s.cfg.channelScoped
    · rw [stage_scoped hscoped, if_pos hscoped]
      exact ⟨_, rfl, rfl, hread.2⟩
    · rw [stage_global hscoped, if_neg hscoped]
      exact ⟨_, rfl, rfl, hread.2⟩

/-! ### What the receiver holds after a run of `Set`s -/

/-- A quiet run that emits `sets` from the levels `ls` takes a readable receiver from the contents `k` to `k'`, under the
configuration `c`, and leaves it readable. -/
def Receives (c : Cfg) (ls : Lines) (k : Chip) (sets : List (Line × Bool)) (k' : Chip) : Prop :=
  ∀ s op more, s.cfg = c → s.lines = ls → s.chip = k → ChipReadable s → Playing op (sets ++ more) s →
    ∃ n t, runFor n s = .next t ∧ Emitted s sets t ∧ t.chip = k' ∧ ChipReadable t ∧ Playing op more t

section

variable {c : Cfg} {ls : Lines} {k k₁ k₂ : Chip} {S T : List (Line × Bool)} {l : Line} {v : Bool}

theorem Receives.append (h : Receives c ls k S k₁) (h' : Receives c (applySets ls S) k₁ T k₂) :
    Receives c ls k (S ++ T) k₂ := by
  intro s op more hcfg hlines hchip hread hplay
  rw [List.append_assoc] at hplay
  obtain ⟨n, t, hrun, hemit, htchip, htread, htplay⟩ := h s op (T ++ more) hcfg hlines hchip hread hplay
  obtain ⟨m, u, hrun', hemit', huchip, huread, huplay⟩ :=
    h' t op more (hemit.cfg.trans hcfg) (hlines ▸ hemit.lines) htchip htread htplay
  exact ⟨n + m, u, (runFor_add hrun m).trans hrun', hemit.trans hemit', huchip, huread, huplay⟩

/-- One `Set` does to the receiver what the block's part that emits it does. -/
theorem Receives.of_stepBlock (hl : l ≠ .ddsReset)
    (h : ∀ s op E rest, s.cfg = c → s.lines = ls → s.chip = k → ChipReadable s → s.execState = .running op E 0 →
      nextSet E = some (l, v, rest) → ∃ t, stepBlock s = .next t ∧ t.chip = k₁ ∧ t.chipLost = false) :
    Receives c ls k [(l, v)] k₁ := by
  intro s op more hcfg hlines hchip hread hplay
  obtain ⟨n, x, E, rest, t, hrun, hwait, hx, hnext, hblock, hemit, htplay⟩ := hplay.emit
  obtain ⟨hxchip, hxlost⟩ := hwait.chip (chipInReset_false hread)
  have hxcfg := hwait.emitted.cfg
  have hxlines : x.lines = s.lines := hwait.emitted.lines
  have hxread : ChipReadable x := ⟨by rw [hxlines, hxcfg]; exact hread.1, hxlost.trans hread.2⟩
  obtain ⟨u, hu, huchip, hulost⟩ :=
    h x op E rest (hxcfg.trans hcfg) (hxlines.trans hlines) (hxchip.trans hchip) hxread hx hnext
  cases hblock.symm.trans hu
  have hreset : t.lines.ddsReset = s.lines.ddsReset := by
    rw [hemit.lines]
    exact Lines.get_set_other s.lines l .ddsReset v hl.symm
  exact ⟨n, t, hrun, hemit, huchip, ⟨by rw [hreset, hemit.cfg]; exact hread.1, hulost⟩, htplay⟩

/-- A run that emits the whole list completes with the receiver as it then is. -/
theorem Receives.completes {s : State} {op : Opcode} (h : Receives s.cfg s.lines s.chip S k) (hread : ChipReadable s)
    (hplay : Playing op S s) :
    ∃ n t, runFor n s = .next t ∧ t.execState = .idle ∧ t.chip = k ∧ t.chipLost = false := by
  obtain ⟨n, t, hrun, -, htchip, htread, htplay⟩ :=
    h s op [] rfl rfl rfl hread (by rwa [List.append_nil])
  obtain ⟨m, x, hrun', hwait⟩ := htplay.complete
  obtain ⟨hxchip, hxlost⟩ := hwait.chip (chipInReset_false htread)
  exact ⟨n + m, x.complete op, (runFor_add hrun m).trans hrun', rfl, hxchip.trans htchip, hxlost.trans htread.2⟩

/-! ### One `Set` -/

theorem receives_no_edge (hl : l ≠ .ddsReset) (hedge : receiverEdge ls (ls.set l v) = false) :
    Receives c ls k [(l, v)] k := by
  refine .of_stepBlock hl fun s op E rest _ hlines hchip hread hexec hnext => ?_
  subst hlines
  have hreset : ((s.emit l v).running op rest).chipInReset = false := by
    rw [← chipInReset_false hread]
    exact congrArg (· == s.cfg.resetActiveLevel) (Lines.get_set_other s.lines l .ddsReset v hl.symm)
  exact ⟨_, stepBlock_emit hexec hnext (receive_no_edge hreset hedge), hchip, hread.2⟩

theorem receives_csFalls (hcs : ls.csN = true) : Receives c ls k [(.csN, false)] (openFrame k []) := by
  refine .of_stepBlock (by decide) fun s op E rest _ hlines hchip hread hexec hnext => ?_
  subst hlines hchip
  exact ⟨_, stepBlock_emit hexec hnext (receive_csFalls (s := (s.emit .csN false).running op rest) hread hcs rfl), rfl,
    hread.2⟩

theorem receives_csRises {buf : List Bool} (hcs : ls.csN = false) (hbuf : bufComplete buf = true) :
    Receives c ls (openFrame k buf) [(.csN, true)] { k with inFrame := false, buf := buf } := by
  refine .of_stepBlock (by decide) fun s op E rest _ hlines hchip hread hexec hnext => ?_
  subst hlines
  let t := (s.emit .csN true).running op rest
  have hend : t.endFrame = { t with chip := { t.chip with inFrame := false } } :=
    if_neg (by simp [t, hchip, openFrame, hbuf])
  have hreceive : t.receive s.lines = ({ t with chip := { t.chip with inFrame := false } }, none) :=
    (receive_csRises (s := t) hread hcs rfl).trans (by rw [hend])
  exact ⟨_, stepBlock_emit hexec hnext hreceive, congrArg (fun x : Chip => { x with inFrame := false }) hchip, hread.2⟩

theorem receives_updateRises (hlow : ls.ioUpdate = false) :
    Receives c ls k [(.ioUpdate, true)] { k with active := k.staged, activeG := k.stagedG } := by
  refine .of_stepBlock (by decide) fun s op E rest _ hlines hchip hread hexec hnext => ?_
  subst hlines hchip
  exact ⟨_, stepBlock_updateRises hread hexec hnext hlow, rfl, hread.2⟩

section

variable {r : ChipReg} {p : List Byte} {taken : List Bool}

/-- A clocked bit before a frame's last. -/
theorem receives_partial_bit {b : Bool} {rest : List Bool} (hp : p.length = r.width) (hcs : ls.csN = false)
    (hsclk : ls.sclk = false) (hdata : ls.sdio0 = b) (hbits : taken ++ b :: rest = frameBits (r.addr :: p))
    (hrest : rest ≠ []) : Receives c ls (openFrame k taken) [(.sclk, true)] (openFrame k (taken ++ [b])) := by
  refine .of_stepBlock (by decide) fun s op E rest' _ hlines hchip hread hexec hnext => ?_
  subst hlines hdata
  let t := (s.emit .sclk true).running op rest'
  have hbuf : t.chip.buf ++ [t.lines.sdio0] = taken ++ [s.lines.sdio0] := congrArg (·.buf ++ [s.lines.sdio0]) hchip
  have hshift := shiftIn_partial (s := t) hp (by rw [hbuf, List.append_assoc]; exact hbits) hrest
  rw [hbuf] at hshift
  exact ⟨_, stepBlock_emit hexec hnext
    ((receive_sclkRises (s := t) (old := s.lines) hread rfl hcs hsclk rfl).trans hshift),
    congrArg (fun x : Chip => { x with buf := taken ++ [s.lines.sdio0] }) hchip, hread.2⟩

/-- A frame's last bit writes the register. -/
theorem receives_last_bit {b : Bool} (hp : p.length = r.width) (hcsr : r = .csr → p.headD 0 &&& 0x0F = 0)
    (hcs : ls.csN = false) (hsclk : ls.sclk = false) (hdata : ls.sdio0 = b)
    (hbits : taken ++ [b] = frameBits (r.addr :: p)) :
    Receives c ls (openFrame k taken) [(.sclk, true)] (openFrame (writeChip c k r p) (frameBits (r.addr :: p))) := by
  refine .of_stepBlock (by decide) fun s op E rest hcfg hlines hchip hread hexec hnext => ?_
  subst hcfg hlines hdata
  have hbuf : s.chip.buf ++ [s.lines.sdio0] = frameBits (r.addr :: p) := by rw [hchip]; exact hbits
  obtain ⟨u, hu, huchip, hulost⟩ := exec_frame_write
    (s := { (s.emit .sclk true).running op rest with chip := { s.chip with buf := frameBits (r.addr :: p) } })
    hread hp hcsr
  refine ⟨u, (stepBlock_lastBit hread hexec hnext hcs hsclk hbuf (decodeFrame_addr hp)).trans hu, ?_, hulost⟩
  rw [huchip, hchip]
  exact writeChip_openFrame s.cfg k r p (frameBits (r.addr :: p))

/-! ### Frames and the update pulse -/

/-- Clock low and data make no edge (R68). -/
theorem receives_data (b : Bool) : Receives c ls k [(.sclk, false), (.sdio0, b)] k :=
  Receives.append (S := [(.sclk, false)]) (receives_no_edge (by decide) (by simp [receiverEdge]))
    (receives_no_edge (by decide) (by simp [receiverEdge, applySets]))

/-- The bits of a frame write its register, once the last is in (R68, R69). -/
theorem receives_bits (hp : p.length = r.width) (hcsr : r = .csr → p.headD 0 &&& 0x0F = 0) {bits : List Bool}
    (hcs : ls.csN = false) (hbits : taken ++ bits = frameBits (r.addr :: p)) (hne : bits ≠ []) :
    Receives c ls (openFrame k taken) (bits.flatMap bitSets)
      (openFrame (writeChip c k r p) (frameBits (r.addr :: p))) := by
  induction bits generalizing ls taken with
  | nil => exact absurd rfl hne
  | cons b rest ih =>
    rw [List.flatMap_cons]
    by_cases hrest : rest = []
    · subst hrest
      exact (receives_data b).append (receives_last_bit hp hcsr hcs rfl rfl hbits)
    · have hbit : Receives c ls (openFrame k taken) (bitSets b) (openFrame k (taken ++ [b])) :=
        (receives_data b).append (receives_partial_bit hp hcs rfl rfl hbits hrest)
      exact hbit.append (ih hcs (by rw [← hbits, List.append_assoc]; rfl) hrest)

/-- The receiver after the whole frame: the write, and the frame closed. -/
def chipAfterFrame (c : Cfg) (k : Chip) (w : ChipReg × List Byte) : Chip :=
  { writeChip c k w.1 w.2 with inFrame := false, buf := frameBits (w.1.addr :: w.2) }

theorem applySets_bits_csN (ls : Lines) (bits : List Bool) : (applySets ls (bits.flatMap bitSets)).csN = ls.csN := by
  refine applySets_get (m := .csN) (fun e he => ?_) ls
  rcases bitSets_line he with h | h <;> simp [h]

theorem receives_frame (hp : p.length = r.width) (hcsr : r = .csr → p.headD 0 &&& 0x0F = 0) (hcs : ls.csN = true) :
    Receives c ls k (setsOf (regFrame c r p)) (chipAfterFrame c k (r, p)) := by
  have hne : frameBits (r.addr :: p) ≠ [] := by simp [frameBits_cons, byteBits]
  rw [regFrame, setsOf_frame]
  exact (receives_csFalls hcs).append
    ((receives_bits hp hcsr rfl (List.nil_append _) hne).append
      (receives_csRises (applySets_bits_csN _ _) (bufComplete_frameBits hp)))

theorem applySets_frame_csN (c : Cfg) (r : ChipReg) (p : List Byte) (ls : Lines) :
    (applySets ls (setsOf (regFrame c r p))).csN = true := by
  rw [regFrame, setsOf_frame, ← List.singleton_append, applySets_append, applySets_append]
  rfl

end

theorem receives_upd :
    Receives c ls k (setsOf (upd c)) { k with active := k.staged, activeG := k.stagedG } := by
  have hlow : Receives c ls k [(.ioUpdate, false)] k := receives_no_edge (by decide) (by simp [receiverEdge])
  have hrise := receives_updateRises (c := c) (ls := applySets ls [(.ioUpdate, false)]) (k := k) rfl
  have hfall := receives_no_edge (c := c) (ls := applySets (applySets ls [(.ioUpdate, false)]) [(.ioUpdate, true)])
    (k := { k with active := k.staged, activeG := k.stagedG }) (l := .ioUpdate) (v := false) (by decide)
    (by simp [receiverEdge])
  exact hlow.append (hrise.append hfall)

end

/-- Settles O58: the frame's `Set`s write what `exec` of the frame writes. -/
theorem frameReachesReceiver : Obligations.FrameReachesReceiver := by
  intro s op timer r p hr hquiet hread hcs hp hcsr hexec
  obtain ⟨n, t, hrun, hidle, htchip, htlost⟩ :=
    (receives_frame hp hcsr hcs).completes hread ⟨hr, hquiet, _, timer, hexec, rfl⟩
  obtain ⟨u, hu, huchip, hulost⟩ := exec_frame_write hread hp hcsr
  refine ⟨n, t, u, hrun, hidle, hu, ?_, ?_, htlost.trans hulost.symm⟩
  · rw [htchip, huchip]
    exact ⟨rfl, rfl, rfl, rfl, rfl⟩
  · rw [htchip]
    rfl

end Sys2Proof.Machine
end

section
/-! PROOF. The fixed tone reaches the chip: a list of frames writes the receiver's registers one after the other, and the
update pulse makes them active (43_mode_sequencer R182, R187; 20_memory R62, R69, R70). -/

namespace Sys2Proof.Machine

open Claims (ChipReadable)

/-! ### Lists of frames -/

/-- The frames that make these writes, in order. -/
def framesOf (c : Cfg) (writes : List (ChipReg × List Byte)) : List Event := writes.flatMap fun w => regFrame c w.1 w.2

/-- A write the receiver reads as R69 says: of its register's width, and in `CSR` with bits [3:0] clear (R68, R257). -/
def ReadableWrite (w : ChipReg × List Byte) : Prop :=
  w.2.length = w.1.width ∧ (w.1 = .csr → w.2.headD 0 &&& 0x0F = 0)

theorem receives_frames {c : Cfg} {writes : List (ChipReg × List Byte)} (hwrites : ∀ w ∈ writes, ReadableWrite w)
    {ls : Lines} (hcs : ls.csN = true) (k : Chip) :
    Receives c ls k (setsOf (framesOf c writes)) (writes.foldl (chipAfterFrame c) k) := by
  induction writes generalizing ls k with
  | nil => exact fun s op more _ _ hchip hread hplay => ⟨0, s, rfl, .refl s, hchip, hread, hplay⟩
  | cons w rest ih =>
    obtain ⟨⟨hp, hcsr⟩, hrest⟩ := List.forall_mem_cons.mp hwrites
    rw [framesOf, List.flatMap_cons, setsOf_append]
    exact (receives_frame hp hcsr hcs).append (ih hrest (applySets_frame_csN c w.1 w.2 ls) _)

/-! ### The registers after a list of writes -/

theorem chipAfterFrame_global {c : Cfg} {r : ChipReg} (hr : r ≠ .csr) (hglobal : r ∉ c.channelScoped) (k : Chip)
    (p : List Byte) : chipAfterFrame c k (r, p) =
      { k with stagedG := writeBank k.stagedG r p, inFrame := false, buf := frameBits (r.addr :: p) } := by
  rw [chipAfterFrame, writeChip, if_neg hr, if_neg hglobal]

theorem chipAfterFrame_scoped {c : Cfg} {r : ChipReg} (hr : r ≠ .csr) (hscoped : r ∈ c.channelScoped) (k : Chip)
    (p : List Byte) : chipAfterFrame c k (r, p) =
      { k with
        staged := Vector.ofFn fun i : Fin 4 =>
          if channelSelected k i then writeBank k.staged[i] r p else k.staged[i]
        inFrame := false, buf := frameBits (r.addr :: p) } := by
  rw [chipAfterFrame, writeChip, if_neg hr, if_pos hscoped]

/-- A bank after these writes, in order. -/
def writesToBank (b : RegBank) (writes : List (ChipReg × List Byte)) : RegBank :=
  writes.foldl (fun b w => writeBank b w.1 w.2) b

/-- Writes of channel-scoped registers reach the banks of the selected channels, and nothing else of the registers (R69). -/
theorem chipAfterFrames_scoped {c : Cfg} {writes : List (ChipReg × List Byte)}
    (hwrites : ∀ w ∈ writes, w.1 ≠ .csr ∧ w.1 ∈ c.channelScoped) (k : Chip) :
    (writes.foldl (chipAfterFrame c) k).csr = k.csr ∧ (writes.foldl (chipAfterFrame c) k).stagedG = k.stagedG
    ∧ ∀ i : Fin 4, (writes.foldl (chipAfterFrame c) k).staged[i] =
        if channelSelected k i then writesToBank k.staged[i] writes else k.staged[i] := by
  induction writes generalizing k with
  | nil => exact ⟨rfl, rfl, fun i => (ite_self _).symm⟩
  | cons w rest ih =>
    obtain ⟨⟨hr, hscoped⟩, hrest⟩ := List.forall_mem_cons.mp hwrites
    obtain ⟨hcsr, hglobal, hstaged⟩ := ih hrest (chipAfterFrame c k w)
    rw [List.foldl_cons, hcsr, hglobal]
    rw [chipAfterFrame_scoped hr hscoped] at hstaged ⊢
    refine ⟨rfl, rfl, fun i => (hstaged i).trans ?_⟩
    cases hsel : channelSelected k i with
    | true => simp [channelSelected, writesToBank, show k.csr.getLsbD (4 + i.val) = true from hsel]
    | false => simp [channelSelected, show k.csr.getLsbD (4 + i.val) = false from hsel]

/-! ### The fixed tone -/

/-- The channel-select byte has bits [3:0] clear and enables its channel alone (R113, R69). -/
theorem csrByte_selects {ch : Byte} (h : ch.toNat ≤ 3) :
    csrByte ch &&& 0x0F = 0 ∧ ∀ i : Fin 4, ((csrByte ch).getLsbD (4 + i.val) = true ↔ i.val = ch.toNat) := by
  have hch : ch = 0 ∨ ch = 1 ∨ ch = 2 ∨ ch = 3 := by bv_omega
  rcases hch with rfl | rfl | rfl | rfl <;> decide

/-- The channel-scoped writes of `CFG_FIXED_TONE` (R182). -/
def toneWrites (c : Cfg) (a : Args) : List (ChipReg × List Byte) :=
  [(.cfr, be3 c.cfrFixed), (.acr, acrBytes a.a2 c.acrBaseFixed), (.cpow, pwBytes a.a1),
   (.cftw, ftwBytes c.fSysclk a.a0)]

/-- Its list is the channel selection, the global `FR1`, the tone, and the update pulse (R182). -/
theorem fixedToneEvents_eq (c : Cfg) (ch : Byte) (a : Args) :
    fixedToneEvents c ch a =
      framesOf c ((.csr, [csrByte ch]) :: (.fr1, be3 c.fr1Value) :: toneWrites c a) ++ upd c := by
  simp [fixedToneEvents, framesOf, toneWrites, sel]

theorem toneWrites_width {c : Cfg} {a : Args} {w : ChipReg × List Byte} (hw : w ∈ toneWrites c a) :
    w.1 ≠ .csr ∧ w.2.length = w.1.width := by
  simp only [toneWrites, List.mem_cons, List.not_mem_nil, or_false] at hw
  rcases hw with rfl | rfl | rfl | rfl
  · exact ⟨nofun, beBytes_length ..⟩
  · exact ⟨nofun, rfl⟩
  · exact ⟨nofun, beBytes_length ..⟩
  · exact ⟨nofun, beBytes_length ..⟩

/-- What a bank holds after the tone's writes. -/
theorem readBank_toneWrites (c : Cfg) (a : Args) (b : RegBank) :
    readBank (writesToBank b (toneWrites c a)) .cfr = be3 c.cfrFixed
    ∧ readBank (writesToBank b (toneWrites c a)) .acr = acrBytes a.a2 c.acrBaseFixed
    ∧ readBank (writesToBank b (toneWrites c a)) .cpow = pwBytes a.a1
    ∧ readBank (writesToBank b (toneWrites c a)) .cftw = ftwBytes c.fSysclk a.a0
    ∧ ∀ r ∈ [ChipReg.lsrr, .rdw, .fdw, .cw1],
        readBank (writesToBank b (toneWrites c a)) r = readBank b r := by
  have hcfr (b : RegBank) := readBank_writeBank (r := .cfr) (by decide) (p := be3 c.cfrFixed) (beBytes_length ..) b
  have hacr (b : RegBank) := readBank_writeBank (r := .acr) (by decide) (p := acrBytes a.a2 c.acrBaseFixed) rfl b
  have hcpow (b : RegBank) := readBank_writeBank (r := .cpow) (by decide) (p := pwBytes a.a1) (beBytes_length ..) b
  have hcftw (b : RegBank) :=
    readBank_writeBank (r := .cftw) (by decide) (p := ftwBytes c.fSysclk a.a0) (beBytes_length ..) b
  simp [writesToBank, toneWrites, hcfr, hacr, hcpow, hcftw]

/-- An accepted `CFG_FIXED_TONE` issues its list. -/
theorem exec_cfgFixedTone_accepted {s : State} {ch : Byte} (hidle : s.execState = .idle) (hdone : s.initDone = true)
    (hch : ch.toNat ≤ 3) (hfreq : s.args.a0.toNat < s.cfg.fSysclk) :
    exec (.cfgFixedTone ch) s = .next
      (({ s with errCode := errNone } : State).issue .cfgFixedTone (fixedToneEvents s.cfg ch s.args)) := by
  have hchannel : ch.toNat < Config.numChannels := by unfold Config.numChannels; omega
  have hchecks : firstError (configChecks s ch [s.args.a0]) = none := by
    simp [configChecks, firstError, hdone, channelOk, ftwValid, hchannel, hfreq]
  rw [exec_cfgFixedTone, offer_accepted (by rw [hidle]; rfl) hchecks]

/-- The receiver's registers after the frames of the tone. -/
theorem chipAfterFrames_fixedTone {c : Cfg} {ch : Byte} (hch : ch.toNat ≤ 3) (a : Args)
    (hscoped : c.channelScoped = Config.defaultScoped) (k : Chip) {k' : Chip}
    (hk : k' = ((.csr, [csrByte ch]) :: (.fr1, be3 c.fr1Value) :: toneWrites c a).foldl (chipAfterFrame c) k) :
    k'.csr = csrByte ch ∧ k'.stagedG = writeBank k.stagedG .fr1 (be3 c.fr1Value)
    ∧ ∀ i : Fin 4, k'.staged[i] =
        if i.val = ch.toNat then writesToBank k.staged[i] (toneWrites c a) else k.staged[i] := by
  have htone : ∀ w ∈ toneWrites c a, w.1 ≠ .csr ∧ w.1 ∈ c.channelScoped := by
    rw [hscoped]
    simp [toneWrites, Config.defaultScoped]
  rw [List.foldl_cons, List.foldl_cons,
    chipAfterFrame_global (r := .fr1) (by decide) (by rw [hscoped]; decide)] at hk
  obtain ⟨hcsr, hglobal, hstaged⟩ := chipAfterFrames_scoped htone
    { chipAfterFrame c k (.csr, [csrByte ch]) with
      stagedG := writeBank (chipAfterFrame c k (.csr, [csrByte ch])).stagedG .fr1 (be3 c.fr1Value)
      inFrame := false, buf := frameBits (ChipReg.fr1.addr :: be3 c.fr1Value) }
  rw [← hk] at hcsr hglobal hstaged
  exact ⟨hcsr, hglobal, fun i => (hstaged i).trans (if_congr ((csrByte_selects hch).2 i) rfl rfl)⟩

/-- Settles O59: the frames stage the tone and the update pulse makes it active. -/
theorem fixedToneReachesChip : Obligations.FixedToneReachesChip := by
  intro s t ch hr hquiet hidle hdone hch hfreq hcs hread hscoped hexec
  rw [exec_cfgFixedTone_accepted hidle hdone hch hfreq] at hexec
  cases hexec
  have hwrites : ∀ w ∈ (.csr, [csrByte ch]) :: (.fr1, be3 s.cfg.fr1Value) :: toneWrites s.cfg s.args,
      ReadableWrite w := by
    refine List.forall_mem_cons.mpr ⟨⟨rfl, fun _ => (csrByte_selects hch).1⟩, List.forall_mem_cons.mpr
      ⟨⟨beBytes_length .., nofun⟩, fun w hw => ?_⟩⟩
    obtain ⟨hne, hwidth⟩ := toneWrites_width hw
    exact ⟨hwidth, fun h => absurd h hne⟩
  have hsent := (receives_frames (c := s.cfg) hwrites hcs s.chip).append receives_upd
  rw [← setsOf_append, ← fixedToneEvents_eq] at hsent
  obtain ⟨n, u, hrun, huidle, huchip, -⟩ := hsent.completes (op := .cfgFixedTone)
    (s := ({ s with errCode := errNone } : State).issue .cfgFixedTone (fixedToneEvents s.cfg ch s.args))
    hread ⟨hr, hquiet, _, _, rfl, rfl⟩
  obtain ⟨hcsr, hglobal, hstaged⟩ := chipAfterFrames_fixedTone hch s.args hscoped s.chip rfl
  have hfr1 := readBank_writeBank (r := .fr1) (by decide) (p := be3 s.cfg.fr1Value) (beBytes_length ..) s.chip.stagedG
  refine ⟨n, u, hrun, huidle, ?_, ?_, ?_, fun i => ⟨fun hi => ?_, fun hi => ?_⟩⟩
  · rw [huchip]
    exact hcsr
  · rw [huchip]
    exact hglobal ▸ hfr1 .fr1
  · rw [huchip]
    exact hglobal ▸ hfr1 .fr2
  · have hbank := hstaged i
    rw [if_pos hi] at hbank
    rw [huchip]
    exact hbank ▸ readBank_toneWrites s.cfg s.args s.chip.staged[i]
  · have hbank := hstaged i
    rw [if_neg hi] at hbank
    rw [huchip]
    exact hbank

end Sys2Proof.Machine
end

section
/-! PROOF. The two encodings round trip: the fields of a command word, the codes of commands and of frames, and which words
are commands (30_encoding R81 to R91). -/

namespace Sys2Proof.Machine

/-! ### The fields of a command word -/

/-- The mask leaves out `CH` alone (R81). -/
theorem getLsbD_commandMask {k : Nat} (hk : k < 32) : commandMask.getLsbD k = decide (k < 8 ∨ 16 ≤ k) := by
  have hall : ∀ k : Fin 32, commandMask.getLsbD k = decide (k.val < 8 ∨ 16 ≤ k.val) := by decide
  exact hall ⟨k, hk⟩

theorem getLsbD_channelField (v : Word) (k : Nat) :
    (channelField v).getLsbD k = (decide (k < 8) && v.getLsbD (8 + k)) :=
  BitVec.getLsbD_extractLsb' ..

/-- `CH` in its place, bits 15:8 (R81). -/
theorem getLsbD_channel (ch : Byte) {k : Nat} (hk : k < 32) :
    (ch.zeroExtend 32 <<< 8).getLsbD k = (decide (8 ≤ k) && ch.getLsbD (k - 8)) := by
  by_cases h8 : 8 ≤ k
  · simp [hk, h8]
  · simp [h8, Nat.not_le.mp h8]

theorem bits_range (op : Opcode) : 1 ≤ op.bits.toNat ∧ op.bits.toNat ≤ 13 := by
  cases op <;> decide

/-- `OP` leaves the bits above 7:0 clear (R82). -/
theorem getLsbD_bits (op : Opcode) {k : Nat} (h : 8 ≤ k) : op.bits.getLsbD k = false := by
  have hpow : 2 ^ 8 ≤ 2 ^ k := Nat.pow_le_pow_right (by decide) h
  have hbits := (bits_range op).2
  exact Nat.testBit_lt_two_pow (by omega)

/-- A word is its bits under the mask and its `CH` field. -/
theorem and_commandMask_or_channelField (v : Word) :
    v &&& commandMask ||| ((channelField v).zeroExtend 32 <<< 8) = v := by
  apply BitVec.eq_of_getLsbD_eq
  intro k hk
  rw [BitVec.getLsbD_or, BitVec.getLsbD_and, getLsbD_commandMask hk, getLsbD_channel _ hk, getLsbD_channelField]
  grind

theorem commandWord_channelField {v : Word} {op : Opcode} (h : op.bits = v &&& commandMask) :
    commandWord op (channelField v) = v := by
  rw [commandWord, h, and_commandMask_or_channelField]

theorem commandWord_and_commandMask (op : Opcode) (ch : Byte) : commandWord op ch &&& commandMask = op.bits := by
  apply BitVec.eq_of_getLsbD_eq
  intro k hk
  rw [commandWord, BitVec.getLsbD_and, BitVec.getLsbD_or, getLsbD_commandMask hk, getLsbD_channel ch hk]
  by_cases h8 : k < 8
  · simp [h8]
  · have hop := getLsbD_bits op (k := k) (by omega)
    have hch := BitVec.getLsbD_of_ge ch (k - 8)
    grind

theorem channelField_commandWord (op : Opcode) (ch : Byte) : channelField (commandWord op ch) = ch := by
  apply BitVec.eq_of_getLsbD_eq
  intro k hk
  rw [getLsbD_channelField, commandWord, BitVec.getLsbD_or, getLsbD_channel ch (by omega),
    getLsbD_bits op (by omega)]
  simp [hk]

theorem commandWord_zero (op : Opcode) : commandWord op 0 = op.bits := by
  cases op <;> rfl

/-! ### Decoding a command word -/

/-- The opcode table names each opcode once (R82). -/
theorem find?_bits (op : Opcode) : Opcode.all.find? (fun o => o.bits == op.bits) = some op := by
  cases op <;> rfl

/-- A word decodes to the command of the opcode its masked bits match (R81). -/
theorem decodeCommand_of_bits {v : Word} {op : Opcode} (h : op.bits = v &&& commandMask) :
    decodeCommand v = .ok (op.command (channelField v)) := by
  unfold decodeCommand
  rw [← h, find?_bits]

/-- A word decodes in no other way (R81, R88). -/
theorem decodeCommand_ok {v : Word} {i : Instr} (h : decodeCommand v = .ok i) :
    ∃ op : Opcode, op.bits = v &&& commandMask ∧ i = op.command (channelField v) := by
  unfold decodeCommand at h
  split at h
  · rename_i op hfind
    cases h
    exact ⟨op, beq_iff_eq.mp (List.find?_some hfind :), rfl⟩
  · cases h

theorem exists_decodeCommand_iff (v : Word) :
    (∃ i, decodeCommand v = .ok i) ↔ ∃ op : Opcode, op.bits = v &&& commandMask :=
  ⟨fun ⟨_, h⟩ => (decodeCommand_ok h).imp fun _ hop => hop.1, fun ⟨_, hop⟩ => ⟨_, decodeCommand_of_bits hop⟩⟩

theorem decodeCommand_commandWord (op : Opcode) (ch : Byte) :
    decodeCommand (commandWord op ch) = .ok (op.command ch) := by
  rw [decodeCommand_of_bits (commandWord_and_commandMask op ch).symm, channelField_commandWord]

/-! ### The code of an instruction -/

/-- The `CH` field a command is encoded with (R91). -/
def encodedChannel (op : Opcode) (ch : Byte) : Byte := if Claims.takesChannel (op.command ch) then ch else 0

theorem encode_command (op : Opcode) (ch : Byte) :
    encode (op.command ch) = .command (commandWord op (encodedChannel op ch)) := by
  cases op <;> rfl

/-- A command that is encoded with `CH` 0 ignores it (R82, R83). -/
theorem command_encodedChannel (op : Opcode) (ch : Byte) : op.command (encodedChannel op ch) = op.command ch := by
  cases op <;> rfl

theorem wellFormed_command (op : Opcode) (ch : Byte) : WellFormed (op.command ch) := by
  cases op <;> rfl

theorem exists_command {i : Instr} (hi : i.isCommand = true) : ∃ (op : Opcode) (ch : Byte), i = op.command ch := by
  cases i
  case init => exact ⟨.init, 0, rfl⟩
  case selectChannel ch => exact ⟨.selectChannel, ch, rfl⟩
  case latchUpdate => exact ⟨.latchUpdate, 0, rfl⟩
  case writeReg => exact ⟨.writeReg, 0, rfl⟩
  case cfgFixedTone ch => exact ⟨.cfgFixedTone, ch, rfl⟩
  case cfgFreqSweep ch => exact ⟨.cfgFreqSweep, ch, rfl⟩
  case cfgPhaseSweep ch => exact ⟨.cfgPhaseSweep, ch, rfl⟩
  case cfgAmpSweep ch => exact ⟨.cfgAmpSweep, ch, rfl⟩
  case encFreq => exact ⟨.encFreq, 0, rfl⟩
  case encPhase => exact ⟨.encPhase, 0, rfl⟩
  case encAmp => exact ⟨.encAmp, 0, rfl⟩
  case encAmpSweep => exact ⟨.encAmpSweep, 0, rfl⟩
  case encPhaseSweep => exact ⟨.encPhaseSweep, 0, rfl⟩
  all_goals exact absurd hi (by simp [Instr.isCommand])

theorem encode_frame (r : ChipReg) (p : List Byte) : encode (r.frame p) = .frame (r.addr :: p) := by
  cases r <;> rfl

theorem wellFormed_frame_iff (r : ChipReg) (p : List Byte) : WellFormed (r.frame p) ↔ p.length = r.width := by
  cases r <;> exact beq_iff_eq

theorem addr_of_ofAddr? {a : Byte} {r : ChipReg} (h : ChipReg.ofAddr? a = some r) : r.addr = a :=
  beq_iff_eq.mp (List.find?_some h :)

/-! ### The round trips -/

/-- Settles O2: a command by its opcode's bits, a frame by its address. -/
theorem decodeOfEncode : Obligations.DecodeOfEncode := by
  intro i hwf
  cases hi : i.isCommand with
  | true =>
    obtain ⟨op, ch, rfl⟩ := exists_command hi
    rw [encode_command, decode, decodeCommand_commandWord, command_encodedChannel]
  | false =>
    obtain ⟨r, p, rfl⟩ := exists_frame hi
    rw [encode_frame, decode, decodeFrame_addr ((wellFormed_frame_iff r p).mp hwf)]

/-- Settles O3: the decoded opcode and `CH` are the fields of the word. -/
theorem encodeOfDecode : Obligations.EncodeOfDecode := by
  constructor
  · intro bytes i h
    obtain ⟨a, p, r, rfl, ha, hp, rfl⟩ := decodeFrame_ok h
    exact ⟨(wellFormed_frame_iff r p).mpr hp, ChipReg.frame_isCommand r p, by rw [encode_frame, addr_of_ofAddr? ha]⟩
  · intro v i h
    obtain ⟨op, hop, rfl⟩ := decodeCommand_ok h
    refine ⟨wellFormed_command op _, decodeCommand_isCommand h, ?_⟩
    rw [encode_command, encodedChannel, apply_ite (commandWord op), commandWord_channelField hop, commandWord_zero, hop,
      commandMask]

/-- Settles O4: the decoder evaluated on eight closed words. -/
theorem sampleWordsDecode : Obligations.SampleWordsDecode := by
  unfold Obligations.SampleWordsDecode
  decide

/-! ### Which words are commands -/

theorem exists_bits_iff (w : Word) : (∃ op : Opcode, op.bits = w) ↔ 1 ≤ w.toNat ∧ w.toNat ≤ 13 := by
  constructor
  · rintro ⟨op, rfl⟩
    exact bits_range op
  · rintro ⟨hlow, hhigh⟩
    have hall : ∀ n : Fin 14, 1 ≤ n.val → ∃ op ∈ Opcode.all, op.bits = BitVec.ofNat 32 n.val := by decide
    obtain ⟨op, -, hop⟩ := hall ⟨w.toNat, by omega⟩ hlow
    exact ⟨op, by rw [hop, BitVec.ofNat_toNat, BitVec.setWidth_eq]⟩

/-- The selecting bits of a word as a number (R81). -/
theorem toNat_and_commandMask (v : Word) : (v &&& commandMask).toNat + v.toNat / 256 % 256 * 256 = v.toNat := by
  have hdisjoint : v &&& commandMask &&& ((channelField v).zeroExtend 32 <<< 8) = 0#32 := by
    apply BitVec.eq_of_getLsbD_eq
    intro k hk
    rw [BitVec.getLsbD_and, BitVec.getLsbD_and, getLsbD_commandMask hk, getLsbD_channel _ hk, getLsbD_channelField]
    grind
  have hsum := congrArg BitVec.toNat (and_commandMask_or_channelField v)
  rw [← BitVec.add_eq_or_of_and_eq_zero _ _ hdisjoint, BitVec.toNat_add] at hsum
  have hle : (v &&& commandMask).toNat ≤ v.toNat := by
    rw [BitVec.toNat_and]
    exact Nat.and_le_left
  have hlt := v.isLt
  have hch : ((channelField v).zeroExtend 32 <<< 8).toNat = v.toNat / 256 % 256 * 256 := by
    simp [channelField, Nat.shiftLeft_eq, Nat.shiftRight_eq_div_pow]
    omega
  omega

/-- The words of the command map, by their fields (R82, R88). -/
theorem exists_decodeCommand_iff_fields (v : Word) :
    (∃ i, decodeCommand v = .ok i) ↔
      (1 ≤ (v.extractLsb' 0 4).toNat ∧ (v.extractLsb' 0 4).toNat ≤ 13
        ∧ v.extractLsb' 4 4 = 0 ∧ v.extractLsb' 16 16 = 0) := by
  have hsel := toNat_and_commandMask v
  have hlt := v.isLt
  rw [exists_decodeCommand_iff, exists_bits_iff, ← BitVec.toNat_inj (x := v.extractLsb' 4 4),
    ← BitVec.toNat_inj (x := v.extractLsb' 16 16)]
  simp only [BitVec.extractLsb'_toNat, Nat.shiftRight_eq_div_pow, BitVec.ofNat_eq_ofNat, BitVec.toNat_ofNat]
  omega

end Sys2Proof.Machine
end

section
/-! PROOF. The host's writes to `CMD` and its polls, as steps (30_encoding R80, R88, R90, R91; 60_exceptions R211, R215, R216):
a command word that decodes, a reserved one, the pseudo-instructions, and one program line played to its end. -/

namespace Sys2Proof.Machine

/-! ### What a new cycle leaves alone -/

@[simp] theorem State.beginCycle_args (s : State) : s.beginCycle.args = s.args :=
  (congrArg State.args (beginCycle_sameBlock s) :)

@[simp] theorem State.beginCycle_busy (s : State) : s.beginCycle.busy = s.busy :=
  (congrArg State.busy (beginCycle_sameBlock s) :)

@[simp] theorem State.beginCycle_errSticky (s : State) : s.beginCycle.errSticky = s.errSticky :=
  (congrArg State.errSticky (beginCycle_sameBlock s) :)

@[simp] theorem State.beginCycle_errCode (s : State) : s.beginCycle.errCode = s.errCode :=
  (congrArg State.errCode (beginCycle_sameBlock s) :)

@[simp] theorem State.beginCycle_result (s : State) : s.beginCycle.result = s.result :=
  (congrArg State.result (beginCycle_sameBlock s) :)

@[simp] theorem State.beginCycle_execState (s : State) : s.beginCycle.execState = s.execState :=
  (congrArg State.execState (beginCycle_sameBlock s) :)

@[simp] theorem State.beginCycle_rstN (s : State) : s.beginCycle.rstN = s.rstN :=
  (congrArg State.rstN (beginCycle_sameBlock s) :)

@[simp] theorem State.beginCycle_host (s : State) : s.beginCycle.host = s.host.tail :=
  (congrArg State.host (beginCycle_sameBlock s) :)

@[simp] theorem State.beginCycle_trace (s : State) : s.beginCycle.trace = s.trace :=
  (congrArg State.trace (beginCycle_sameBlock s) :)

theorem hostOp_cons {s : State} {op : HostOp} {rest : List HostOp} (h : s.host = op :: rest) : s.hostOp = op := by
  rw [State.hostOp, h]
  rfl

theorem isRunning_of_ne_idle {e : Exec} (h : e ≠ .idle) : e.isRunning = true := by
  cases e with
  | idle => exact absurd rfl h
  | running op E k => rfl

/-! ### Command words -/

theorem onAccess_cmd {α : Type} (k : Host.Outcome α Fault Refusal) : onAccess cmdOffset 4 k = k :=
  onAccess_ok (by decide) (by decide) k

/-- A command word that decodes yields its command (R80). -/
theorem hostPhase_command {s : State} {v : Word} {rest : List HostOp} {i : Instr} (hr : s.rstN = true)
    (hhost : s.host = .write cmdOffset 4 v :: rest) (hdecode : decodeCommand v = .ok i) :
    s.hostPhase = .next (s.beginCycle, some i) := by
  have hop := hostOp_cons hhost
  unfold State.hostPhase
  rw [inResetCycle_false hr (by simp [hop]), hop]
  simp only [Bool.false_eq_true, if_false, onAccess_cmd, if_true, hdecode]

/-- A reserved command word is rejected (R88). -/
theorem hostPhase_reserved {s : State} {v : Word} {rest : List HostOp} {e : DecodeError} (hr : s.rstN = true)
    (hhost : s.host = .write cmdOffset 4 v :: rest) (hdecode : decodeCommand v = .error e) :
    s.hostPhase = .next (s.beginCycle.rejectReserved, none) := by
  have hop := hostOp_cons hhost
  unfold State.hostPhase
  rw [inResetCycle_false hr (by simp [hop]), hop]
  simp only [Bool.false_eq_true, if_false, onAccess_cmd, if_true, hdecode]

/-- A write to `CMD` that decodes offers the command to the state the cycle begins with; the block's part follows if a
command was running (R211, R216). -/
theorem step_command {s u : State} {v : Word} {rest : List HostOp} {i : Instr} (hr : s.rstN = true)
    (hhost : s.host = .write cmdOffset 4 v :: rest) (hdecode : decodeCommand v = .ok i)
    (hexec : exec i s.beginCycle = .next u) :
    step s = if s.execState.isRunning then stepBlock u else .next u := by
  unfold step
  rw [hostPhase_command hr hhost hdecode]
  simp only [runFetched, hexec]

/-- Settles O5: `step_command`, by whether a command runs. -/
theorem stepRunsCommand : Obligations.StepRunsCommand := by
  intro s v rest i hr hhost hdecode
  obtain ⟨u, hexec⟩ := exec_next i s.beginCycle
  have hstep := step_command hr hhost hdecode hexec
  constructor
  · intro hidle
    rw [hstep, hidle, hexec]
    rfl
  · intro hrun
    refine ⟨u, hexec, ?_⟩
    rw [hstep, isRunning_of_ne_idle hrun]
    rfl

/-- While no command runs a reserved command word is rejected with code 1, and the block does nothing else (R88, R212). -/
theorem step_reserved_idle {s : State} {v : Word} {rest : List HostOp} {e : DecodeError} (hr : s.rstN = true)
    (hidle : s.execState = .idle) (hhost : s.host = .write cmdOffset 4 v :: rest)
    (hdecode : decodeCommand v = .error e) : step s = .next (s.beginCycle.reject .badOpcode) := by
  have hreject : s.beginCycle.rejectReserved = s.beginCycle.reject .badOpcode :=
    if_neg (by simp [hidle, Exec.isRunning])
  unfold step
  rw [hostPhase_reserved hr hhost hdecode, hreject, hidle]
  rfl

/-- Settles O1: the words of the command map by their fields; any other is rejected. -/
theorem reservedWordRejected : Obligations.ReservedWordRejected := by
  refine ⟨exists_decodeCommand_iff_fields, fun s v rest hr hidle hhost hreserved => ?_⟩
  cases hdecode : decodeCommand v with
  | error e => exact step_reserved_idle hr hidle hhost hdecode
  | ok i =>
    obtain ⟨hlow, hhigh, hmid, htop⟩ := (exists_decodeCommand_iff_fields v).mp ⟨i, hdecode⟩
    rcases hreserved with h | h | h | h
    · omega
    · omega
    · exact absurd hmid h
    · exact absurd htop h

/-! ### Polls -/

theorem statusWord_busy (s : State) : (statusWord s).getLsbD 0 = s.busy :=
  getLsbD_statusWord s 0

theorem statusWord_errCode (s : State) : (statusWord s).extractLsb' 4 4 = s.errCode := by
  apply BitVec.eq_of_getLsbD_eq
  intro k hk
  rw [BitVec.getLsbD_extractLsb', getLsbD_statusWord, if_neg (by omega), if_neg (by omega), if_neg (by omega),
    if_pos (by omega), Nat.add_sub_cancel_left, decide_eq_true hk, Bool.true_and]

theorem hostPhase_waitIdle {s : State} {rest : List HostOp} (hr : s.rstN = true) (hhost : s.host = .waitIdle :: rest) :
    s.hostPhase = .next ({ s.beginCycle with
      readData := some (statusWord s), host := if s.busy then .waitIdle :: rest else rest }, none) := by
  have hop := hostOp_cons hhost
  have hread : s.readReg statusOffset = statusWord s := rfl
  unfold State.hostPhase
  rw [inResetCycle_false hr (by simp [hop]), hop]
  simp only [Bool.false_eq_true, if_false, hread, statusWord_busy, State.beginCycle_host, hhost, List.tail_cons]

theorem hostPhase_expectOk {s : State} {rest : List HostOp} (hr : s.rstN = true) (hhost : s.host = .expectOk :: rest) :
    s.hostPhase = .next ({ s.beginCycle with
      readData := some (statusWord s), host := if s.errCode = 0 then rest else [] }, none) := by
  have hop := hostOp_cons hhost
  have hread : s.readReg statusOffset = statusWord s := rfl
  unfold State.hostPhase
  rw [inResetCycle_false hr (by simp [hop]), hop]
  simp only [Bool.false_eq_true, if_false, hread, statusWord_errCode, errNone, State.beginCycle_host, hhost,
    List.tail_cons]

theorem step_idle_next {s : State} {rest : List HostOp} (hr : s.rstN = true) :
    ∃ u, step { s with host := .idle :: rest } = .next u := by
  rw [step_no_access (s := { s with host := .idle :: rest }) hr rfl]
  obtain ⟨u, hu, -⟩ := stepBlock_cases ({ s with host := .idle :: rest } : State).beginCycle
  split
  · exact ⟨u, hu⟩
  · exact ⟨_, rfl⟩

/-- A host's part that only returns data and sets what is left of the program: the step is that of a cycle without an
access, but for both. -/
theorem step_poll {s u : State} {op : HostOp} {rest H : List HostOp} {d : Option Word} (hr : s.rstN = true)
    (hhost : s.host = op :: rest) (hphase : s.hostPhase = .next ({ s.beginCycle with readData := d, host := H }, none))
    (hidle : step { s with host := .idle :: rest } = .next u) :
    step s = .next { u with readData := d, host := H } := by
  rw [step_no_access (s := { s with host := .idle :: rest }) hr rfl, beginCycle_host_head hhost] at hidle
  unfold step
  rw [hphase]
  cases hrun : s.execState.isRunning with
  | true =>
    have hblock : stepBlock s.beginCycle = .next u := by simpa [hrun] using hidle
    have hu := stepBlock_withAside hblock { s.beginCycle with readData := d, host := H }
    rw [← stepBlock_keeps_aside hblock]
    exact hu
  | false =>
    obtain rfl : s.beginCycle = u := by simpa [hrun] using hidle
    rfl

/-- Settles O39: `step_poll` for either poll. -/
theorem pseudoInstructions : Obligations.PseudoInstructions := by
  intro s rest hr
  obtain ⟨u, hidle⟩ := step_idle_next (rest := rest) hr
  exact ⟨u, hidle, fun hhost => step_poll hr hhost (hostPhase_waitIdle hr hhost) hidle,
    fun hhost => step_poll hr hhost (hostPhase_expectOk hr hhost) hidle⟩

/-! ### The line `ENC_PHASE p` -/

/-- A cycle without an access leaves an idle block as it is. -/
theorem step_no_access_idle {s : State} {op : HostOp} {rest : List HostOp} (hr : s.rstN = true)
    (hexec : s.execState = .idle) (hhost : s.host = op :: rest) :
    step { s with host := .idle :: rest } = .next s.beginCycle := by
  rw [step_no_access (s := { s with host := .idle :: rest }) hr rfl, beginCycle_host_head hhost]
  exact if_neg (by simp [hexec, Exec.isRunning])

theorem step_writeReg_idle {s : State} {offset : Nat} {v : Word} {rest : List HostOp} (hr : s.rstN = true)
    (hexec : s.execState = .idle) (h0 : offset ≠ cmdOffset) (hlt : offset < 64) (h4 : offset % 4 = 0)
    (hhost : s.host = .write offset 4 v :: rest) : step s = .next (s.beginCycle.writeReg offset v) := by
  obtain ⟨u, hu, hwrite⟩ := step_writeReg hr h0 hlt h4 hhost
  rw [step_no_access_idle hr hexec hhost] at hu
  cases hu
  exact hwrite

theorem writeReg_a0 (s : State) (v : Word) : s.writeReg 0x04 v = { s with args := { s.args with a0 := v } } := rfl

theorem offer_unchecked {s : State} (hexec : s.execState = .idle) (effect : State → State) :
    offer s [] effect = .next (effect { s with errCode := 0 }) :=
  offer_accepted (by rw [hexec]; rfl) rfl effect

theorem exec_encPhase_idle {s : State} (hexec : s.execState = .idle) :
    exec .encPhase s = .next { s with errCode := 0, result := BitVec.ofNat 32 (pw s.args.a0) } := by
  rw [exec_encPhase, offer_unchecked hexec]

theorem expand_encPhase (p : Word) :
    (ProgramLine.encPhase p).expand = [.write 0x04 4 p, .write cmdOffset 4 (commandWord .encPhase 0), .waitIdle] := rfl

/-- Settles O40: the operand write, the command and the poll are each one step of an idle block. -/
theorem encPhaseLineRuns : Obligations.EncPhaseLineRuns := by
  intro s p rest hr hexec hbusy hhost
  rw [expand_encPhase, List.cons_append, List.cons_append, List.cons_append, List.nil_append] at hhost
  have hwrite := step_writeReg_idle hr hexec (by decide) (by decide) (by decide) hhost
  rw [writeReg_a0] at hwrite
  set t : State := { s.beginCycle with args := { s.beginCycle.args with a0 := p } }
  have htexec : t.execState = .idle := s.beginCycle_execState.trans hexec
  have hthost : t.host = .write cmdOffset 4 (commandWord .encPhase 0) :: .waitIdle :: rest := by
    simp [t, hhost]
  have hcommand := step_command (s := t) (s.beginCycle_rstN.trans hr) hthost (decodeCommand_commandWord .encPhase 0)
    (exec_encPhase_idle (t.beginCycle_execState.trans htexec))
  rw [htexec, Exec.isRunning, if_neg nofun] at hcommand
  set u : State := { t.beginCycle with errCode := 0, result := BitVec.ofNat 32 (pw t.beginCycle.args.a0) }
  have hur : u.rstN = true := by simp [u, t, hr]
  have huexec : u.execState = .idle := by simp [u, t, hexec]
  have huhost : u.host = .waitIdle :: rest := by simp [u, hthost]
  have hpoll := step_poll hur huhost (hostPhase_waitIdle hur huhost) (step_no_access_idle hur huexec huhost)
  refine ⟨_, (runFor_succ hwrite 2).trans ((runFor_succ hcommand 1).trans ((runFor_one u).trans hpoll)), ?_⟩
  simp [u, t, hexec, hbusy, pw]

end Sys2Proof.Machine
end

section
/-! PROOF. A frame as a reader of the wire sees it, and the command that sends one frame of the host's own (30_encoding R86;
41_transport R141, R142, R146). -/

namespace Sys2Proof.Machine

/-! ### Bits of a frame -/

theorem getElem?_byteBits (b : Byte) {k : Nat} (hk : k < 8) : (byteBits b)[k]? = some (b.getLsbD (7 - k)) := by
  interval_cases k <;> rfl

/-- Bit `k` of a frame is a bit of byte `k / 8`, most significant first (R142). -/
theorem getElem?_frameBits (bytes : List Byte) (k : Nat) :
    (frameBits bytes)[k]? = (bytes[k / 8]?).map fun b => b.getLsbD (7 - k % 8) := by
  induction bytes generalizing k with
  | nil => rfl
  | cons b rest ih =>
    rw [frameBits_cons]
    by_cases hk : k < 8
    · rw [List.getElem?_append_left hk, getElem?_byteBits b hk, Nat.div_eq_of_lt hk, Nat.mod_eq_of_lt hk]
      rfl
    · obtain ⟨j, rfl⟩ : ∃ j, k = j + 8 := ⟨k - 8, by omega⟩
      have hlen : (byteBits b).length = 8 := rfl
      rw [List.getElem?_append_right (by omega), hlen, Nat.add_sub_cancel, ih, Nat.add_div_right j (by decide),
        Nat.add_mod_right, List.getElem?_cons_succ]

/-- The wire carries a frame's bytes, from any levels (R141). -/
theorem sends_frame (c : Cfg) (a : Byte) (p : List Byte) : Claims.Sends (frame c a p) [a :: p] := by
  intro sclk data
  obtain ⟨d, hread⟩ := readWire_frame c a p sclk data [] []
  rw [List.append_nil] at hread
  exact hread

/-- Settles O47: `readWire_frame` and `getElem?_frameBits`. -/
theorem frameOnTheWire : Obligations.FrameOnTheWire := fun c a p =>
  ⟨sends_frame c a p, by rw [frameBits_length, List.length_cons, Nat.add_comm], fun k _ => getElem?_frameBits (a :: p) k⟩

/-! ### `WRITE_REG` -/

/-- A frame drives `CS_N`, `SCLK` and `SDIO0` alone (R141). -/
theorem levelsOf_frame {l : Line} (hcs : l ≠ .csN) (hclk : l ≠ .sclk) (hdata : l ≠ .sdio0) (c : Cfg) (a : Byte)
    (p : List Byte) : levelsOf l (frame c a p) = [] := by
  rw [levelsOf, List.map_eq_nil_iff, List.filter_eq_nil_iff, setsOf_frame]
  intro e he
  rw [List.mem_cons, List.mem_append, List.mem_singleton] at he
  rw [beq_iff_eq]
  rcases he with rfl | hbit | rfl
  · exact hcs.symm
  · rcases bitSets_line hbit with h | h
    · exact h ▸ hclk.symm
    · exact h ▸ hdata.symm
  · exact hcs.symm

/-- An accepted command has issued its list (R211, R214). -/
theorem issued_issue (s : State) (op : Opcode) (E : List Event) :
    Claims.Issued s (({ s with errCode := errNone } : State).issue op E) op E := by
  have hgap := one_le_minGap E
  exact ⟨⟨_, rfl, by omega⟩, rfl⟩

/-- The big-endian bytes of a word's low end, by bit fields (R9). -/
theorem beBytes_eq_map (n : Nat) (v : Word) :
    beBytes n v.toNat = (List.range n).map fun k => v.extractLsb' (8 * (n - 1 - k)) 8 := by
  induction n with
  | zero => rfl
  | succ n ih =>
    rw [beBytes, ih, List.range_succ_eq_map, List.map_cons, List.map_map]
    refine congrArg₂ _ rfl (List.map_congr_left fun k _ => ?_)
    simp [Nat.sub_sub, Nat.add_comm]

theorem exec_writeReg_accepted {s : State} {r : ChipReg} (hexec : s.execState = .idle) (hdone : s.initDone = true)
    (haddr : writeRegAddr s.args = r.addr) (hlen : (writeRegLen s.args).toNat = r.width) :
    exec .writeReg s = .next (({ s with errCode := errNone } : State).issue .writeReg
      (frame s.cfg r.addr (beBytes r.width s.args.a1.toNat))) := by
  have hchecks : firstError
      [(s.initDone, .notInit), (addressOk (writeRegAddr s.args), .badAddress),
        (lengthOk (writeRegAddr s.args) (writeRegLen s.args), .badLength)] = none := by
    simp [firstError, hdone, haddr, addressOk, lengthOk, ofAddr?_addr, hlen]
  rw [exec_writeReg, offer_accepted (by rw [hexec]; rfl) hchecks, writeRegPayload, haddr, hlen]

/-- Settles O21: the command issues one frame of the register. -/
theorem writeRegSends : Obligations.WriteRegSends := by
  intro s r hexec hdone haddr hlen
  refine ⟨_, _, exec_writeReg_accepted hexec hdone haddr hlen, issued_issue s _ _, ?_,
    levelsOf_frame (by decide) (by decide) (by decide) ..⟩
  rw [← beBytes_eq_map]
  exact sends_frame s.cfg r.addr _

end Sys2Proof.Machine
end

section
/-! PROOF. The amplitude encoders as commands (40_encoder R114, R115, R132, R133): their `RESULT` by the bit fields of the
operands. -/

namespace Sys2Proof.Machine

/-! ### Concatenations as numbers -/

theorem toNat_append_add {m n : Nat} (x : BitVec m) (y : BitVec n) :
    (x ++ y).toNat = x.toNat * 2 ^ n + y.toNat := by
  rw [BitVec.toNat_append, ← Nat.shiftLeft_add_eq_or_of_lt y.isLt, Nat.shiftLeft_eq]

/-- Three bytes right-aligned in a host register (R85). -/
theorem ofNat_ofBytes_three (b0 b1 b2 : Byte) :
    BitVec.ofNat 32 (ofBytes [b0, b1, b2]) = 0#8 ++ b0 ++ b1 ++ b2 := by
  have happend : (0#8 ++ b0 ++ b1 ++ b2).toNat = ofBytes [b0, b1, b2] := by
    rw [toNat_append_add, toNat_append_add, toNat_append_add]
    rfl
  rw [← happend]
  exact (BitVec.ofNat_toNat ..).trans (BitVec.setWidth_eq _)

/-! ### The amplitude word -/

/-- `AW` is the low ten bits (R112). -/
theorem aw_eq_toNat (a : Word) : aw a = (a.extractLsb' 0 10).toNat := by
  rw [aw, BitVec.extractLsb'_toNat, Nat.shiftRight_zero]
  exact Nat.and_two_pow_sub_one_eq_mod a.toNat 10

/-- `ASW` is `AW` in the top ten bits (R115). -/
theorem ofNat_asw (a : Word) : BitVec.ofNat 32 (asw a) = a.extractLsb' 0 10 ++ 0#22 := by
  have hasw : asw a = aw a * 2 ^ 22 := Nat.shiftLeft_eq (aw a) 22
  have happend : (a.extractLsb' 0 10 ++ 0#22).toNat = asw a := by
    rw [toNat_append_add, BitVec.toNat_ofNat, Nat.zero_mod, Nat.add_zero, hasw, aw_eq_toNat]
  rw [← happend]
  exact (BitVec.ofNat_toNat ..).trans (BitVec.setWidth_eq _)

/-- `ACR_BYTES` by bit fields (R114). -/
theorem acrBytes_eq_fields (a : Word) (base : BitVec 16) :
    acrBytes a base =
      [base.extractLsb' 8 8, base.extractLsb' 0 8 ||| (a.extractLsb' 8 2).zeroExtend 8, a.extractLsb' 0 8] := by
  have hhigh : BitVec.ofNat 8 (aw a >>> 8) = (a.extractLsb' 8 2).zeroExtend 8 := by
    apply BitVec.eq_of_toNat_eq
    simp [aw_eq_toNat, Nat.shiftRight_eq_div_pow]
    omega
  have hlow : BitVec.ofNat 8 (aw a &&& 0xFF) = a.extractLsb' 0 8 := by
    have hmask : aw a &&& 0xFF = aw a % 2 ^ 8 := Nat.and_two_pow_sub_one_eq_mod (aw a) 8
    apply BitVec.eq_of_toNat_eq
    rw [hmask, aw_eq_toNat]
    simp
  rw [acrBytes, hhigh, hlow]

/-- A byte of the baseline is that byte of `ARG1` (R85). -/
theorem extractLsb'_ampBase (a : Args) {i : Nat} (hi : i ≤ 8) :
    (ampBase a).extractLsb' i 8 = a.a1.extractLsb' i 8 := by
  apply BitVec.eq_of_getLsbD_eq
  intro k hk
  have hik : i + k < 16 := by omega
  simp [ampBase, BitVec.getLsbD_extractLsb', hik]

/-- Settles O17: offers without checks, their results by bit fields. -/
theorem encAmpResults : Obligations.EncAmpResults := by
  intro s hexec
  constructor
  · rw [exec_encAmp, offer_unchecked hexec, acrBytes_eq_fields, ofNat_ofBytes_three,
      extractLsb'_ampBase s.args (by decide), extractLsb'_ampBase s.args (by decide)]
  · rw [exec_encAmpSweep, offer_unchecked hexec, ofNat_asw]

end Sys2Proof.Machine
end

section
/-! PROOF. The encoder functions and the reference decoders (40_encoder R110-R116, R118-R122): each word by its arithmetic,
its bytes by bit fields. -/

namespace Sys2Proof.Machine

/-! ### Frequency -/

theorem ftw_eq_div (F : Nat) (f : Word) : ftw F f = f.toNat * 2 ^ 32 / F := by
  rw [ftw, Nat.shiftLeft_eq]

theorem ftwValid_iff (F : Nat) (f : Word) : ftwValid F f = true ↔ f.toNat < F := decide_eq_true_iff

/-- The two forms of `FTW_VALID` (R110). -/
theorem ftw_lt_iff {F : Nat} (hF : 0 < F) (f : Word) : ftw F f < 2 ^ 32 ↔ f.toNat < F := by
  rw [ftw_eq_div, Nat.div_lt_iff_lt_mul hF, Nat.mul_comm (2 ^ 32) F]
  exact Nat.mul_lt_mul_right (by decide)

/-- The four bytes of a word, by bit fields (R9). -/
theorem beBytes_four_toNat (w : Word) :
    beBytes 4 w.toNat = [w.extractLsb' 24 8, w.extractLsb' 16 8, w.extractLsb' 8 8, w.extractLsb' 0 8] :=
  beBytes_eq_map 4 w

/-- Settles O7: a quotient below `2^32` is the value of the word its bytes come from. -/
theorem frequencyWord : Obligations.FrequencyWord := by
  refine ⟨fun F f hF => ⟨ftw_eq_div F f, ?_, ftwValid_iff F f, fun hvalid => ?_⟩,
    by decide, by decide, by decide, by decide⟩
  · rw [ftwValid_iff, ← ftw_eq_div, ftw_lt_iff hF]
  · have hlt := (ftw_lt_iff hF f).mpr ((ftwValid_iff F f).mp hvalid)
    rw [ftwBytes, ← ftw_eq_div, ← beBytes_four_toNat, BitVec.toNat_ofNat, Nat.mod_eq_of_lt hlt]

/-- Settles O8: both bounds are those of the division with remainder, over `2^32`. -/
theorem frequencyRoundTrip : Obligations.FrequencyRoundTrip := by
  intro F f hf
  have hF : 0 < F := Nat.zero_lt_of_lt hf
  have hdecode : decodeFrequency F (ftw F f) = ((f.toNat * 2 ^ 32 / F * F : Nat) : Rat) / 2 ^ 32 := by
    rw [decodeFrequency, ftw_eq_div]
    norm_num
  have hlow : ((f.toNat * 2 ^ 32 / F * F : Nat) : Rat) ≤ f.toNat * 2 ^ 32 := by
    exact_mod_cast Nat.div_mul_le_self (f.toNat * 2 ^ 32) F
  have hhigh : (f.toNat * 2 ^ 32 : Rat) < (f.toNat * 2 ^ 32 / F * F : Nat) + F := by
    exact_mod_cast Nat.lt_div_mul_add hF
  rw [hdecode]
  constructor <;> linarith

/-! ### Phase -/

theorem pw_lt (p : Word) : pw p < 2 ^ 14 := Nat.mod_lt _ (by decide)

theorem pwBytes_eq (p : Word) : pwBytes p = [BitVec.ofNat 8 (pw p >>> 8), BitVec.ofNat 8 (pw p)] := rfl

/-- Settles O9. A tie would make `p · 2^14` an odd multiple of 180, and that is no multiple of 8. -/
theorem phaseWordNearest : Obligations.PhaseWordNearest := by
  intro p
  have hlt := pw_lt p
  refine ⟨⟨(p.toNat * 2 ^ 14 + 180) / 360, rfl, by omega, by omega⟩, _, _, pwBytes_eq p, ?_, ?_⟩
  · apply BitVec.eq_of_toNat_eq
    simp only [BitVec.extractLsb'_toNat, BitVec.toNat_ofNat, Nat.shiftRight_eq_div_pow, BitVec.ofNat_eq_ofNat]
    omega
  · simp only [BitVec.toNat_ofNat, Nat.shiftRight_eq_div_pow]
    omega

/-- Settles O10: a turn adds `2^14` to the rounded quotient. -/
theorem phaseWraps : Obligations.PhaseWraps := by
  refine ⟨fun p k hlt => ?_, by decide, by decide⟩
  have hquotient : ((p.toNat + 360 * k) * 2 ^ 14 + 180) / 360 = (p.toNat * 2 ^ 14 + 180) / 360 + k * 2 ^ 14 := by
    omega
  rw [pw, BitVec.toNat_ofNat, Nat.mod_eq_of_lt hlt, hquotient, Nat.add_mul_mod_self_right, pw]

/-! ### Amplitude -/

/-- ORing two bits into the baseline's low byte changes bits 1:0 alone (R114). -/
theorem extractLsb'_or_zeroExtend_low (base : BitVec 16) (x : BitVec 2) :
    (base.extractLsb' 0 8 ||| x.zeroExtend 8).extractLsb' 0 2 = base.extractLsb' 0 2 ||| x := by
  apply BitVec.eq_of_getLsbD_eq
  intro k hk
  simp [hk, show k < 8 by omega]

theorem extractLsb'_or_zeroExtend_flags (base : BitVec 16) (x : BitVec 2) :
    (base.extractLsb' 0 8 ||| x.zeroExtend 8).extractLsb' 2 6 = base.extractLsb' 2 6 := by
  apply BitVec.eq_of_getLsbD_eq
  intro k hk
  simp [hk, show 2 + k < 8 by omega]

/-- The reference decoder reads bits 1:0 of the middle byte above the last byte (R118). -/
theorem decodeAmplitude_eq (b0 b1 b2 : Byte) :
    decodeAmplitude [b0, b1, b2] = some (b1.extractLsb' 0 2 ++ b2).toNat := by
  have hmask : (b1 &&& 0x3).toNat = (b1.extractLsb' 0 2).toNat := by
    rw [BitVec.extractLsb'_toNat, Nat.shiftRight_zero, BitVec.toNat_and]
    exact Nat.and_two_pow_sub_one_eq_mod b1.toNat 2
  rw [decodeAmplitude, BitVec.toNat_append, hmask]

/-- A baseline that leaves bits 1:0 clear decodes to `AW` (R121). -/
theorem decodeAmplitude_acrBytes {base : BitVec 16} (hbase : base.extractLsb' 0 2 = 0) (a : Word) :
    decodeAmplitude (acrBytes a base) = some (aw a) := by
  rw [acrBytes_eq_fields, decodeAmplitude_eq, extractLsb'_or_zeroExtend_low, hbase, BitVec.ofNat_eq_ofNat, BitVec.zero_or,
    BitVec.extractLsb'_append_extractLsb'_eq_extractLsb' (show 8 = 0 + 8 from rfl), aw_eq_toNat]

/-- Settles O11: `decodeAmplitude_acrBytes`; `AW` is the masked operand. -/
theorem amplitudeMasking : Obligations.AmplitudeMasking :=
  ⟨fun a => decodeAmplitude_acrBytes (by decide) a, fun a _ hbase => decodeAmplitude_acrBytes hbase a⟩

theorem aw_and_mask (a : Word) : aw (a &&& 0x3FF) = aw a := by
  rw [aw, BitVec.toNat_and, Nat.and_assoc]
  rfl

/-- Settles O12: the bit fields of the three bytes, and `AW` of the masked operand. -/
theorem amplitudeKeepsFlags : Obligations.AmplitudeKeepsFlags := fun a base =>
  ⟨_, _, acrBytes_eq_fields a base, extractLsb'_or_zeroExtend_flags base _, extractLsb'_or_zeroExtend_low base _, rfl,
    by rw [acrBytes, aw_and_mask, acrBytes]⟩

/-! ### Sweep words -/

theorem beBytes_four_eq_shifts (v : Nat) :
    beBytes 4 v =
      [BitVec.ofNat 8 (v >>> 24), BitVec.ofNat 8 (v >>> 16), BitVec.ofNat 8 (v >>> 8), BitVec.ofNat 8 (v >>> 0)] := rfl

/-- A byte of a number, by its bits. -/
theorem ofNat_shiftRight_eq {v x n : Nat} (h : ∀ k < 8, v.testBit (n + k) = x.testBit k) :
    BitVec.ofNat 8 (v >>> n) = BitVec.ofNat 8 x := by
  apply BitVec.eq_of_getLsbD_eq
  intro k hk
  rw [BitVec.getLsbD_ofNat, BitVec.getLsbD_ofNat, Nat.testBit_shiftRight, h k hk]

/-- The bytes of a value of `8 + m` bits left-aligned in 32 bits: its top eight bits, then its low `m` bits at the top of
the second byte (R115, R116). -/
theorem beBytes_leftAligned (v : Nat) {m j : Nat} (h : m + j = 8) :
    beBytes 4 (v <<< (16 + j)) = [BitVec.ofNat 8 (v >>> m), BitVec.ofNat 8 ((v &&& (2 ^ m - 1)) <<< j), 0, 0] := by
  have htop : BitVec.ofNat 8 (v <<< (16 + j) >>> 24) = BitVec.ofNat 8 (v >>> m) :=
    ofNat_shiftRight_eq fun k _ => by
      rw [Nat.testBit_shiftLeft, Nat.testBit_shiftRight, show 24 + k - (16 + j) = m + k by omega,
        decide_eq_true (by omega), Bool.true_and]
  have hsecond : BitVec.ofNat 8 (v <<< (16 + j) >>> 16) = BitVec.ofNat 8 ((v &&& (2 ^ m - 1)) <<< j) :=
    ofNat_shiftRight_eq fun k hk => by
      rw [Nat.and_two_pow_sub_one_eq_mod, Nat.testBit_shiftLeft, Nat.testBit_shiftLeft, Nat.testBit_mod_two_pow,
        show 16 + k - (16 + j) = k - j by omega]
      by_cases hj : j ≤ k
      · simp [hj, show k - j < m by omega]
      · simp [hj]
  have hzero {n : Nat} (hn : n ≤ 8) : BitVec.ofNat 8 (v <<< (16 + j) >>> n) = 0 :=
    ofNat_shiftRight_eq (x := 0) fun k hk => by
      rw [Nat.testBit_shiftLeft, decide_eq_false (by omega), Bool.false_and, Nat.zero_testBit]
  rw [beBytes_four_eq_shifts, htop, hsecond, hzero (by decide), hzero (by decide)]

theorem aw_lt (a : Word) : aw a < 2 ^ 10 := aw_eq_toNat a ▸ BitVec.isLt _

theorem asw_eq_mul (a : Word) : asw a = aw a * 2 ^ 22 := Nat.shiftLeft_eq ..

theorem psw_eq_mul (p : Word) : psw p = pw p * 2 ^ 18 := Nat.shiftLeft_eq ..

theorem asw_lt (a : Word) : asw a < 2 ^ 32 := by
  have := aw_lt a
  rw [asw_eq_mul]
  omega

theorem psw_lt (p : Word) : psw p < 2 ^ 32 := by
  have := pw_lt p
  rw [psw_eq_mul]
  omega

/-- Settles O14: both words are left-aligned in 32 bits, by 6 and by 2 bits of the second byte. -/
theorem sweepWordLayouts : Obligations.SweepWordLayouts :=
  ⟨fun a => ⟨asw_lt a, asw_eq_mul a, beBytes_leftAligned (aw a) (m := 2) (j := 6) rfl⟩,
    fun p => ⟨psw_lt p, psw_eq_mul p, beBytes_leftAligned (pw p) (m := 6) (j := 2) rfl⟩⟩

/-! ### Channel selection -/

theorem csrByte_eq_twoPow (ch : Byte) : csrByte ch = BitVec.twoPow 8 (4 + ch.toNat) := by
  rw [BitVec.twoPow_eq, BitVec.shiftLeft_add]
  rfl

/-- Settles O13: the byte is a power of two; its low nibble is `csrByte_selects`. -/
theorem channelSelectOneHot : Obligations.ChannelSelectOneHot := by
  refine fun ch hch => ⟨fun k _ => ?_, (csrByte_selects hch).1⟩
  rw [csrByte_eq_twoPow, BitVec.getLsbD_twoPow, decide_eq_true (by omega), Bool.true_and]
  exact decide_eq_decide.mpr eq_comm

end Sys2Proof.Machine
end

section
/-! PROOF. The frequency and phase encoders and `SELECT_CHANNEL` as commands (40_encoder R130, R131, R134;
42_channel_controller R161). -/

namespace Sys2Proof.Machine

/-- Settles O15: an offer with one check, which holds or fails with the operand's range. -/
theorem encFreqResult : Obligations.EncFreqResult := by
  intro s hexec
  refine ⟨fun hlt => ?_, fun hge => ?_⟩
  · have hvalid := (ftwValid_iff s.cfg.fSysclk s.args.a0).mpr hlt
    rw [exec_encFreq, offer_accepted (by rw [hexec]; rfl) (by rw [hvalid]; rfl), ftw_eq_div]
    rfl
  · have hinvalid : ftwValid s.cfg.fSysclk s.args.a0 = false := decide_eq_false (Nat.not_lt.mpr hge)
    rw [Claims.Rejects, exec_encFreq, offer_rejected (by rw [hexec]; rfl) (by rw [hinvalid]; rfl)]
    rfl

theorem ofNat_psw (p : Word) : BitVec.ofNat 32 (psw p) = BitVec.ofNat 32 (pw p) <<< 18 := by
  rw [BitVec.shiftLeft_eq_mul_twoPow, psw_eq_mul, BitVec.ofNat_mul]
  rfl

/-- Settles O16: offers without checks; the bound word is `PW`. -/
theorem encPhaseResults : Obligations.EncPhaseResults := by
  intro s hexec
  have hword : (BitVec.ofNat 14 (pw s.args.a0)).zeroExtend 32 = BitVec.ofNat 32 (pw s.args.a0) :=
    BitVec.setWidth_ofNat_of_le_of_lt (by decide) (pw_lt s.args.a0)
  refine ⟨BitVec.ofNat 14 (pw s.args.a0), ?_, ?_, ?_⟩
  · rw [BitVec.toNat_ofNat, Nat.mod_eq_of_lt (pw_lt _), pw]
  · rw [hword, exec_encPhase_idle hexec]
  · rw [hword, ← ofNat_psw, exec_encPhaseSweep, offer_unchecked hexec]

/-- An accepted `SELECT_CHANNEL` issues `SEL` (R161). -/
theorem exec_selectChannel_accepted {s : State} {ch : Byte} (hexec : s.execState = .idle) (hdone : s.initDone = true)
    (hch : ch.toNat ≤ 3) :
    exec (.selectChannel ch) s =
      .next (({ s with errCode := errNone } : State).issue .selectChannel (sel s.cfg ch)) := by
  have hchannel : channelOk ch = true := decide_eq_true (Nat.lt_succ_of_le hch)
  have hchecks : firstError [(s.initDone, .notInit), (channelOk ch, .badChannel)] = none := by
    rw [hdone, hchannel]
    rfl
  rw [exec_selectChannel, offer_accepted (by rw [hexec]; rfl) hchecks]

/-- Settles O19: the command issues one frame, of the channel-select byte. -/
theorem selectChannelSends : Obligations.SelectChannelSends := fun s ch hexec hdone hch =>
  ⟨_, _, exec_selectChannel_accepted hexec hdone hch, issued_issue s _ _, sends_frame s.cfg _ _,
    levelsOf_frame (by decide) (by decide) (by decide) ..⟩

end Sys2Proof.Machine
end

section
/-! PROOF. What a frame's `Set`s do line by line: the levels they drive (41_transport R143) and the lines they leave
behind (R144). -/

namespace Sys2Proof.Machine

/-! ### The levels of the three lines of a frame -/

/-- The levels `Set`s drive onto one line, in order: `levelsOf` of an event list by its `Set`s. -/
def levelsIn (l : Line) (sets : List (Line × Bool)) : List Bool := (sets.filter fun e => e.1 == l).map (·.2)

/-- A frame drives onto a line what its two ends and each of its bits drive onto it (R141). -/
theorem levelsOf_frame_by_bit (l : Line) (c : Cfg) (a : Byte) (p : List Byte) :
    levelsOf l (frame c a p) =
      levelsIn l [(.csN, false)] ++
        (((frameBits (a :: p)).flatMap fun b => levelsIn l (bitSets b)) ++ levelsIn l [(.csN, true)]) := by
  rw [levelsOf, setsOf_frame, ← List.singleton_append, List.filter_append, List.filter_append, List.filter_flatMap,
    List.map_append, List.map_append, List.map_flatMap]
  rfl

/-- `CS_N` falls once and rises once. -/
theorem levelsOf_csN_frame (c : Cfg) (a : Byte) (p : List Byte) : levelsOf .csN (frame c a p) = [false, true] := by
  have hbit : ∀ b ∈ frameBits (a :: p), levelsIn .csN (bitSets b) = [] := fun _ _ => rfl
  rw [levelsOf_frame_by_bit, List.flatMap_eq_nil_iff.mpr hbit]
  rfl

/-- One clock pulse for each bit, low first. -/
theorem levelsOf_sclk_frame (c : Cfg) (a : Byte) (p : List Byte) :
    levelsOf .sclk (frame c a p) = (frameBits (a :: p)).flatMap fun _ => [false, true] := by
  rw [levelsOf_frame_by_bit]
  exact List.append_nil _

/-- `SDIO0` carries the frame's bits in order (R142). -/
theorem levelsOf_sdio0_frame (c : Cfg) (a : Byte) (p : List Byte) :
    levelsOf .sdio0 (frame c a p) = frameBits (a :: p) := by
  rw [levelsOf_frame_by_bit]
  exact (List.append_nil _).trans (List.flatMap_singleton' _)

theorem length_flatMap_of_length_eq {α β : Type} {f : α → List β} {k : Nat} (hf : ∀ x, (f x).length = k)
    (xs : List α) : (xs.flatMap f).length = xs.length * k := by
  simp [List.length_flatMap, hf]

/-- Two `Set`s on `CS_N` and three a bit. -/
theorem setsOf_frame_length (c : Cfg) (a : Byte) (p : List Byte) :
    (setsOf (frame c a p)).length = 2 + 24 * (1 + p.length) := by
  rw [setsOf_frame, List.length_cons, List.length_append, length_flatMap_of_length_eq (k := 3) fun _ => rfl,
    frameBits_length, List.length_cons, List.length_singleton]
  omega

/-- Settles O46: a line's count is that of its levels, two or one a bit; the first clock level is the first bit's. -/
theorem frameSetCounts : Obligations.FrameSetCounts := by
  intro c a p n
  have hbits : (frameBits (a :: p)).length = 8 * (1 + n) := by
    rw [frameBits_length, List.length_cons, Nat.add_comm]
  refine ⟨setsOf_frame_length c a p, ?_, ?_, ?_, ?_⟩
  · rw [levelsOf_csN_frame]
    rfl
  · rw [levelsOf_sclk_frame, length_flatMap_of_length_eq (k := 2) fun _ => rfl, hbits]
    omega
  · rw [levelsOf_sdio0_frame, hbits]
  · rw [levelsOf_sclk_frame]
    rfl

/-! ### The lines after a frame -/

/-- After some bits `SCLK` is high and `SDIO0` holds the last of them (R141). -/
theorem applySets_bits_concat (ls : Lines) (bits : List Bool) (b : Bool) :
    applySets ls ((bits ++ [b]).flatMap bitSets) = { ls with sclk := true, sdio0 := b } := by
  induction bits generalizing ls with
  | nil => rfl
  | cons first rest ih =>
    rw [List.cons_append, List.flatMap_cons, applySets_append, ih]
    rfl

/-- The last bit on the wire is bit 0 of the last byte (R142). -/
theorem exists_frameBits_concat (bytes : List Byte) (last : Byte) :
    ∃ bits, frameBits (bytes ++ [last]) = bits ++ [last.getLsbD 0] := by
  refine ⟨frameBits bytes ++ (byteBits last).dropLast, ?_⟩
  rw [frameBits, List.flatMap_append, List.append_assoc]
  rfl

/-- Settles O48: the bits leave `SCLK` and `SDIO0`, and the frame's end leaves `CS_N`. -/
theorem linesAfterFrame : Obligations.LinesAfterFrame := by
  intro c a p last ls
  obtain ⟨bits, hbits⟩ := exists_frameBits_concat (a :: p) last
  rw [List.cons_append] at hbits
  rw [setsOf_frame, hbits, ← List.singleton_append, applySets_append, applySets_append,
    applySets_bits_concat]
  rfl

end Sys2Proof.Machine
end

section
/-! PROOF. The channel controller's commands without a frame (42_channel_controller R163-R165), and the step in which a
running command completes (R166; 60_exceptions R214). -/

namespace Sys2Proof.Machine

/-! ### Acceptance -/

/-- `INIT` is accepted while `INIT_DONE` is 0, and issues `INIT_EVENTS` (R165). -/
theorem exec_init_accepted {s : State} (hexec : s.execState = .idle) (hnew : s.initDone = false) :
    exec .init s = .next (({ s with errCode := errNone } : State).issue .init (initEvents s.cfg)) := by
  rw [exec_init, offer_accepted (by rw [hexec]; rfl) (by rw [hnew]; rfl)]

/-- Settles O18: the list INIT issues is `INIT_EVENTS`, written out. -/
theorem initIssues : Obligations.InitIssues := fun s hexec hnew =>
  ⟨_, exec_init_accepted hexec hnew, issued_issue s .init (initEvents s.cfg)⟩

/-- `LATCH_UPDATE` is accepted once `INIT_DONE` is 1, and issues `UPD` (R164). -/
theorem exec_latchUpdate_accepted {s : State} (hexec : s.execState = .idle) (hdone : s.initDone = true) :
    exec .latchUpdate s = .next (({ s with errCode := errNone } : State).issue .latchUpdate (upd s.cfg)) := by
  rw [exec_latchUpdate, offer_accepted (by rw [hexec]; rfl) (by rw [hdone]; rfl)]

/-- Settles O20: the list LATCH_UPDATE issues is `UPD`, written out. -/
theorem latchUpdatePulses : Obligations.LatchUpdatePulses := fun s hexec hdone =>
  ⟨_, exec_latchUpdate_accepted hexec hdone, issued_issue s .latchUpdate (upd s.cfg)⟩

/-! ### Completion -/

@[simp] theorem State.beginCycle_initDone (s : State) : s.beginCycle.initDone = s.initDone :=
  (congrArg State.initDone (beginCycle_sameBlock s) :)

/-- Completion as a record update, with the test for `INIT` as a decision (R166, R214). -/
theorem State.complete_eq (s : State) (op : Opcode) :
    s.complete op = { s with execState := .idle, busy := false, initDone := s.initDone || decide (op = .init) } := by
  have hinit : (op == .init) = decide (op = .init) := Bool.eq_iff_iff.mpr (by simp)
  rw [State.complete, hinit]

/-- Settles O45: without an access the step is the block's part, and with no `Set` left that is the completion. -/
theorem completionStep : Obligations.CompletionStep := by
  intro s op E hr hop hexec hE
  have hbegun : s.beginCycle.execState = .running op E 0 := s.beginCycle_execState.trans hexec
  rw [step_no_access hr hop, if_pos (by rw [hexec]; rfl), stepBlock_complete hbegun hE, State.complete_eq,
    State.beginCycle_initDone]

end Sys2Proof.Machine
end

section
/-! PROOF. The four configuration commands (43_mode_sequencer R180-R190): each list is the same channel selection and
`FR1` write, the writes of its mode, and one update pulse. -/

namespace Sys2Proof.Machine

open Claims (PulsesOnceAtEnd Sends)

/-! ### What frames followed by `UPD` show on the wire -/

theorem levelsOf_append (l : Line) (E F : List Event) : levelsOf l (E ++ F) = levelsOf l E ++ levelsOf l F := by
  simp [levelsOf]

/-- A reader of the wire takes down each write as its address and payload, and no frame in the pulse (R141, R163). -/
theorem readWire_framesOf_upd (c : Cfg) (writes : List (ChipReg × List Byte)) (sclk data : Bool) :
    readWire true sclk data [] (setsOf (framesOf c writes ++ upd c)) =
      writes.map fun w => frameBits (w.1.addr :: w.2) := by
  induction writes generalizing sclk data with
  | nil => exact readWire_upd c sclk data []
  | cons w rest ih =>
    obtain ⟨d, hread⟩ := readWire_frame c w.1.addr w.2 sclk data [] (setsOf (framesOf c rest ++ upd c))
    rw [framesOf, List.flatMap_cons, List.append_assoc, setsOf_append]
    exact hread.trans (congrArg _ (ih true d))

theorem sends_framesOf_upd (c : Cfg) (writes : List (ChipReg × List Byte)) :
    Sends (framesOf c writes ++ upd c) (writes.map fun w => w.1.addr :: w.2) := fun sclk data => by
  rw [framesSent, readWire_framesOf_upd, List.map_map]
  rfl

theorem levelsOf_ioUpdate_framesOf (c : Cfg) (writes : List (ChipReg × List Byte)) :
    levelsOf .ioUpdate (framesOf c writes) = [] := by
  induction writes with
  | nil => rfl
  | cons w rest ih =>
    rw [framesOf, List.flatMap_cons, levelsOf_append]
    exact List.append_eq_nil_iff.mpr ⟨levelsOf_frame (by decide) (by decide) (by decide) .., ih⟩

/-- No frame drives `IO_UPDATE`, so the pulse at the end is the only one (R180). -/
theorem pulsesOnceAtEnd_framesOf_upd (c : Cfg) (writes : List (ChipReg × List Byte)) :
    PulsesOnceAtEnd (framesOf c writes ++ upd c) := by
  refine ⟨?_, setsOf (framesOf c writes), setsOf_append ..⟩
  rw [levelsOf_append, levelsOf_ioUpdate_framesOf]
  rfl

/-! ### The lists of the four commands -/

/-- The writes of a configuration command: the channel selection, `FR1`, then those of its mode (R182-R185). -/
def configWrites (c : Cfg) (ch : Byte) (modeWrites : List (ChipReg × List Byte)) : List (ChipReg × List Byte) :=
  (.csr, [csrByte ch]) :: (.fr1, be3 c.fr1Value) :: modeWrites

/-- The writes of a frequency sweep (R183). -/
def freqSweepWrites (c : Cfg) (a : Args) : List (ChipReg × List Byte) :=
  [(.cfr, be3 c.cfrFsweep), (.cftw, ftwBytes c.fSysclk a.a0), (.cw1, ftwBytes c.fSysclk a.a1),
   (.rdw, ftwBytes c.fSysclk a.a2), (.fdw, ftwBytes c.fSysclk a.a3), (.lsrr, be2 c.srrFsweep),
   (.acr, acrBytes a.a5 c.acrBaseFsweep), (.cpow, pwBytes a.a4)]

/-- The writes of a phase sweep, by the shadow slot's payload (R184). -/
def phaseSweepWrites (c : Cfg) (a : Args) (shadow : List Byte) : List (ChipReg × List Byte) :=
  [(.cfr, be3 c.cfrPsweep), (.cftw, ftwBytes c.fSysclk a.a0), (.cpow, pwBytes a.a1), (.cw1, shadow),
   (.rdw, pswBytes a.a3), (.fdw, pswBytes a.a4), (.lsrr, be2 c.srrPsweep),
   (.acr, acrBytes a.a5 c.acrBasePsweep)]

/-- The writes of an amplitude sweep, by the shadow slot's payload (R185). -/
def ampSweepWrites (c : Cfg) (a : Args) (shadow : List Byte) : List (ChipReg × List Byte) :=
  [(.cfr, be3 c.cfrAsweep), (.acr, acrBytes a.a2 c.acrBaseAsweep), (.cw1, shadow), (.rdw, aswBytes a.a4),
   (.fdw, aswBytes a.a5), (.lsrr, be2 c.srrAsweep), (.cpow, pwBytes a.a1),
   (.cftw, ftwBytes c.fSysclk a.a0)]

theorem freqSweepEvents_eq (c : Cfg) (ch : Byte) (a : Args) :
    freqSweepEvents c ch a = framesOf c (configWrites c ch (freqSweepWrites c a)) ++ upd c := by
  simp [freqSweepEvents, framesOf, configWrites, freqSweepWrites, sel]

theorem phaseSweepEvents_eq (c : Cfg) (ch : Byte) (a : Args) (draw : BitVec 32) :
    phaseSweepEvents c ch a draw =
      framesOf c (configWrites c ch (phaseSweepWrites c a (shadowBytes c (pswBytes a.a2) draw))) ++ upd c := by
  simp [phaseSweepEvents, framesOf, configWrites, phaseSweepWrites, sel]

theorem ampSweepEvents_eq (c : Cfg) (ch : Byte) (a : Args) (draw : BitVec 32) :
    ampSweepEvents c ch a draw =
      framesOf c (configWrites c ch (ampSweepWrites c a (shadowBytes c (aswBytes a.a3) draw))) ++ upd c := by
  simp [ampSweepEvents, framesOf, configWrites, ampSweepWrites, sel]

/-! ### The shadow slot -/

theorem shadowBytes_intended {c : Cfg} (h : c.shadowEndPolicy = .intended) (intended : List Byte)
    (draw : BitVec 32) : shadowBytes c intended draw = intended := by
  rw [shadowBytes, h]

/-- The slot holds four bytes under either policy (R189, R190). -/
theorem shadowBytes_length (c : Cfg) {intended : List Byte} (h : intended.length = 4) (draw : BitVec 32) :
    (shadowBytes c intended draw).length = 4 := by
  unfold shadowBytes
  cases c.shadowEndPolicy with
  | intended => exact h
  | unconstrained => exact beBytes_length ..

/-! ### Acceptance -/

/-- The common validation passes: `INIT_DONE`, a channel of 0 to 3, every frequency below `F_SYSCLK` (R181). -/
theorem firstError_configChecks {s : State} {ch : Byte} {freqs : List Word} (hdone : s.initDone = true)
    (hch : ch.toNat ≤ 3) (hfreqs : ∀ f ∈ freqs, f.toNat < s.cfg.fSysclk) :
    firstError (configChecks s ch freqs) = none := by
  have hchannel : channelOk ch = true := decide_eq_true (Nat.lt_succ_of_le hch)
  rw [configChecks, firstError_none_iff, List.forall_mem_append]
  refine ⟨by simp [hdone, hchannel], fun check hcheck => ?_⟩
  obtain ⟨f, hf, rfl⟩ := List.mem_map.mp hcheck
  exact (ftwValid_iff _ f).mpr (hfreqs f hf)

theorem exec_cfgFreqSweep_accepted {s : State} {ch : Byte} (hidle : s.execState = .idle) (hdone : s.initDone = true)
    (hch : ch.toNat ≤ 3)
    (hfreqs : ∀ f ∈ [s.args.a0, s.args.a1, s.args.a2, s.args.a3], f.toNat < s.cfg.fSysclk) :
    exec (.cfgFreqSweep ch) s = .next
      (({ s with errCode := errNone } : State).issue .cfgFreqSweep (freqSweepEvents s.cfg ch s.args)) := by
  rw [exec_cfgFreqSweep, offer_accepted (by rw [hidle]; rfl) (firstError_configChecks hdone hch hfreqs)]

theorem exec_cfgPhaseSweep_accepted {s : State} {ch : Byte} (hidle : s.execState = .idle) (hdone : s.initDone = true)
    (hch : ch.toNat ≤ 3) (hfreq : s.args.a0.toNat < s.cfg.fSysclk) :
    exec (.cfgPhaseSweep ch) s = .next (({ s with errCode := errNone } : State).issue .cfgPhaseSweep
      (phaseSweepEvents s.cfg ch s.args (Config.freeShadow s.draws))) := by
  rw [exec_cfgPhaseSweep, offer_accepted (by rw [hidle]; rfl)
    (firstError_configChecks hdone hch (List.forall_mem_singleton.mpr hfreq))]

theorem exec_cfgAmpSweep_accepted {s : State} {ch : Byte} (hidle : s.execState = .idle) (hdone : s.initDone = true)
    (hch : ch.toNat ≤ 3) (hfreq : s.args.a0.toNat < s.cfg.fSysclk) :
    exec (.cfgAmpSweep ch) s = .next (({ s with errCode := errNone } : State).issue .cfgAmpSweep
      (ampSweepEvents s.cfg ch s.args (Config.freeShadow s.draws))) := by
  rw [exec_cfgAmpSweep, offer_accepted (by rw [hidle]; rfl)
    (firstError_configChecks hdone hch (List.forall_mem_singleton.mpr hfreq))]

/-! ### The obligations -/

/-- Settles O22: the list is the frames of `toneWrites` between the selection and the pulse. -/
theorem fixedToneSends : Obligations.FixedToneSends := by
  intro s ch hidle hdone hch hfreq
  refine ⟨_, _, exec_cfgFixedTone_accepted hidle hdone hch hfreq, issued_issue .., ?_⟩
  rw [fixedToneEvents_eq]
  exact ⟨pulsesOnceAtEnd_framesOf_upd .., sends_framesOf_upd _ _⟩

/-- Settles O23: the list is the frames of `freqSweepWrites` between the selection and the pulse. -/
theorem freqSweepSends : Obligations.FreqSweepSends := by
  intro s ch hidle hdone hch hstart hend hup hdown
  have hfreqs : ∀ f ∈ [s.args.a0, s.args.a1, s.args.a2, s.args.a3], f.toNat < s.cfg.fSysclk := by
    simp [hstart, hend, hup, hdown]
  refine ⟨_, _, exec_cfgFreqSweep_accepted hidle hdone hch hfreqs, issued_issue .., ?_⟩
  rw [freqSweepEvents_eq]
  exact ⟨pulsesOnceAtEnd_framesOf_upd .., sends_framesOf_upd _ _⟩

/-- Settles O24: the list is the frames of `phaseSweepWrites`, with `shadowBytes` in the shadow slot. -/
theorem phaseSweepSends : Obligations.PhaseSweepSends := by
  intro s ch hidle hdone hch hfreq
  refine ⟨_, _, shadowBytes s.cfg (pswBytes s.args.a2) (Config.freeShadow s.draws),
    exec_cfgPhaseSweep_accepted hidle hdone hch hfreq, issued_issue .., ?_⟩
  rw [phaseSweepEvents_eq]
  exact ⟨pulsesOnceAtEnd_framesOf_upd .., shadowBytes_length _ (beBytes_length ..) _,
    fun hpolicy => shadowBytes_intended hpolicy .., sends_framesOf_upd _ _⟩

/-- Settles O25: the list is the frames of `ampSweepWrites`, with `shadowBytes` in the shadow slot. -/
theorem ampSweepSends : Obligations.AmpSweepSends := by
  intro s ch hidle hdone hch hfreq
  refine ⟨_, _, shadowBytes s.cfg (aswBytes s.args.a3) (Config.freeShadow s.draws),
    exec_cfgAmpSweep_accepted hidle hdone hch hfreq, issued_issue .., ?_⟩
  rw [ampSweepEvents_eq]
  exact ⟨pulsesOnceAtEnd_framesOf_upd .., shadowBytes_length _ (beBytes_length ..) _,
    fun hpolicy => shadowBytes_intended hpolicy .., sends_framesOf_upd _ _⟩

/-! ### Bit counts -/

/-- Every write fills its register (R86). -/
def FullWidth (writes : List (ChipReg × List Byte)) : Prop := ∀ w ∈ writes, w.2.length = w.1.width

theorem fullWidth_freqSweepWrites (c : Cfg) (a : Args) : FullWidth (freqSweepWrites c a) := by
  simp [FullWidth, freqSweepWrites, be3, be2, ftwBytes, pwBytes, acrBytes, beBytes_length, ChipReg.width]

theorem fullWidth_phaseSweepWrites (c : Cfg) (a : Args) {shadow : List Byte} (h : shadow.length = 4) :
    FullWidth (phaseSweepWrites c a shadow) := by
  simp [FullWidth, phaseSweepWrites, be3, be2, ftwBytes, pwBytes, pswBytes, acrBytes, beBytes_length, h, ChipReg.width]

theorem fullWidth_ampSweepWrites (c : Cfg) (a : Args) {shadow : List Byte} (h : shadow.length = 4) :
    FullWidth (ampSweepWrites c a shadow) := by
  simp [FullWidth, ampSweepWrites, be3, be2, ftwBytes, pwBytes, aswBytes, acrBytes, beBytes_length, h, ChipReg.width]

/-- The frames of a configuration command have 16 bits, 32 bits, and then an address and a register each (R186). -/
theorem configWrites_bitCounts (c : Cfg) (ch : Byte) {writes : List (ChipReg × List Byte)} (h : FullWidth writes)
    (sclk data : Bool) :
    (framesSent sclk data (framesOf c (configWrites c ch writes) ++ upd c)).map List.length =
      16 :: 32 :: writes.map fun w => 8 * (1 + w.1.width) := by
  have hmode : writes.map (fun w => (frameBits (w.1.addr :: w.2)).length) = writes.map fun w => 8 * (1 + w.1.width) :=
    List.map_congr_left fun w hw => by rw [frameBits_length, List.length_cons, h w hw, Nat.add_comm]
  rw [framesSent, readWire_framesOf_upd, List.map_map]
  exact congrArg (16 :: 32 :: ·) hmode

/-- Settles O49: each list by its writes; their registers' widths give the counts. -/
theorem configFrameCounts : Obligations.ConfigFrameCounts := by
  intro c ch a draw sclk data
  have hpsw := shadowBytes_length c (intended := pswBytes a.a2) (beBytes_length ..) draw
  have hasw := shadowBytes_length c (intended := aswBytes a.a3) (beBytes_length ..) draw
  rw [fixedToneEvents_eq, freqSweepEvents_eq, phaseSweepEvents_eq, ampSweepEvents_eq]
  exact ⟨configWrites_bitCounts c ch (fun w hw => (toneWrites_width hw).2) sclk data,
    configWrites_bitCounts c ch (fullWidth_freqSweepWrites c a) sclk data,
    configWrites_bitCounts c ch (fullWidth_phaseSweepWrites c a hpsw) sclk data,
    configWrites_bitCounts c ch (fullWidth_ampSweepWrites c a hasw) sclk data,
    pulsesOnceAtEnd_framesOf_upd .., pulsesOnceAtEnd_framesOf_upd .., pulsesOnceAtEnd_framesOf_upd ..,
    pulsesOnceAtEnd_framesOf_upd ..⟩

end Sys2Proof.Machine
end

section
/-! PROOF. The checks of each command and its rejection (60_exceptions R210, R212, R215): which check fails first, what the
rejection changes, and that `ERR_STICKY` stays 1 until block reset (R218). -/

namespace Sys2Proof.Machine

/-! ### `ERR_STICKY` -/

theorem CycleBegun.errSticky {s x : State} (h : CycleBegun s x) : x.errSticky = s.errSticky :=
  (congrArg State.errSticky h :)

/-- The host's part sets `ERR_STICKY` by a rejection and never clears it. -/
theorem HostEffect.errSticky {s x w : State} (hx : CycleBegun s x) (h : HostEffect s x w)
    (hsticky : s.errSticky = true) : w.errSticky = true := by
  have hxs : x.errSticky = true := hx.errSticky.trans hsticky
  cases h with
  | none => exact hxs
  | rejected e => rfl
  | encoded v i r => exact hxs
  | issued i op E => exact hxs

theorem stepBlock_errSticky {w t : State} (h : stepBlock w = .next t) : t.errSticky = w.errSticky :=
  (congrArg State.errSticky (stepBlock_keeps_aside h) :).symm

/-- Settles O30: outside block reset the host's part keeps `ERR_STICKY` at 1 and the block's part does not touch it. -/
theorem stickyUntilReset : Obligations.StickyUntilReset := by
  intro s t h hsticky hno
  rcases step_cases h with ⟨hreset, -⟩ | ⟨-, x, w, hx, hw, ⟨-, rfl⟩ | ⟨-, hblock⟩⟩
  · rw [hno] at hreset
    cases hreset
  · exact hw.errSticky hx hsticky
  · exact (stepBlock_errSticky hblock).trans (hw.errSticky hx hsticky)

/-! ### What a rejection changes -/

/-- Settles O28: of the outcomes of a command only the rejection leaves a code other than `ERR_NONE`. -/
theorem rejectionFrame : Obligations.RejectionFrame := by
  intro i s t hi h hcode
  rcases exec_command_cases hi h with ⟨e, rfl⟩ | ⟨-, -, v, rfl⟩ | ⟨-, -, op, E, rfl⟩
  · rfl
  · exact absurd rfl hcode
  · exact absurd rfl hcode

/-! ### Which check fails first -/

/-- An idle block rejects a command with the code of its first failing check (R211, R212). -/
theorem rejects_of_firstError {i : Instr} {s : State} {checks : List (Bool × ErrCode)} {effect : State → State}
    {e : ErrCode} (hidle : s.execState = .idle) (hexec : exec i s = offer s checks effect)
    (hfirst : firstError checks = some e) : Claims.Rejects i s e.code :=
  hexec.trans (offer_rejected (by rw [hidle]; rfl) hfirst effect)

/-- Every line-driving command but `INIT` checks `INIT_DONE` first (R215). -/
theorem exec_lineDriving {ch : Byte} {i : Instr} (hi : i ∈ Claims.lineDriving ch) (s : State) :
    ∃ rest effect, exec i s = offer s ((s.initDone, .notInit) :: rest) effect := by
  simp only [Claims.lineDriving, List.mem_cons, List.not_mem_nil, or_false] at hi
  rcases hi with rfl | rfl | rfl | rfl | rfl | rfl | rfl
  · exact ⟨_, _, exec_selectChannel ch s⟩
  · exact ⟨_, _, exec_latchUpdate s⟩
  · exact ⟨_, _, exec_writeReg s⟩
  · exact ⟨_, _, exec_cfgFixedTone ch s⟩
  · exact ⟨_, _, exec_cfgFreqSweep ch s⟩
  · exact ⟨_, _, exec_cfgPhaseSweep ch s⟩
  · exact ⟨_, _, exec_cfgAmpSweep ch s⟩

/-- A configuration command other than the frequency sweep is an offer under the common validation of one frequency,
`ARG0` (R181). -/
theorem exec_config_oneFrequency {ch : Byte} {i : Instr}
    (hi : i ∈ [Instr.cfgFixedTone ch, .cfgPhaseSweep ch, .cfgAmpSweep ch]) (s : State) :
    ∃ effect, exec i s = offer s (configChecks s ch [s.args.a0]) effect := by
  simp only [List.mem_cons, List.not_mem_nil, or_false] at hi
  rcases hi with rfl | rfl | rfl
  · exact ⟨_, exec_cfgFixedTone ch s⟩
  · exact ⟨_, exec_cfgPhaseSweep ch s⟩
  · exact ⟨_, exec_cfgAmpSweep ch s⟩

/-- Every command that takes a channel checks it right after `INIT_DONE` (R161, R181). -/
theorem exec_takesChannel {ch : Byte} {i : Instr}
    (hi : i ∈ [Instr.selectChannel ch, .cfgFixedTone ch, .cfgFreqSweep ch, .cfgPhaseSweep ch, .cfgAmpSweep ch])
    (s : State) :
    ∃ rest effect, exec i s = offer s ((s.initDone, .notInit) :: (channelOk ch, .badChannel) :: rest) effect := by
  simp only [List.mem_cons, List.not_mem_nil, or_false] at hi
  rcases hi with rfl | rfl | rfl | rfl | rfl
  · exact ⟨_, _, exec_selectChannel ch s⟩
  · exact ⟨_, _, exec_cfgFixedTone ch s⟩
  · exact ⟨_, _, exec_cfgFreqSweep ch s⟩
  · exact ⟨_, _, exec_cfgPhaseSweep ch s⟩
  · exact ⟨_, _, exec_cfgAmpSweep ch s⟩

/-- With the checks before it passed, a frequency at or above `F_SYSCLK` fails the common validation (R181). -/
theorem firstError_configChecks_freqRange {s : State} {ch : Byte} {freqs : List Word} (hdone : s.initDone = true)
    (hch : ch.toNat ≤ 3) (hfreq : ∃ f ∈ freqs, s.cfg.fSysclk ≤ f.toNat) :
    firstError (configChecks s ch freqs) = some .freqRange := by
  have hchannel : channelOk ch = true := decide_eq_true (Nat.lt_succ_of_le hch)
  cases hfirst : firstError (configChecks s ch freqs) with
  | none =>
    obtain ⟨f, hf, hge⟩ := hfreq
    have hvalid : ftwValid s.cfg.fSysclk f = true :=
      (firstError_none_iff _).mp hfirst (ftwValid s.cfg.fSysclk f, .freqRange)
        (List.mem_append_right _ (List.mem_map_of_mem hf))
    exact absurd ((ftwValid_iff _ f).mp hvalid) (Nat.not_lt.mpr hge)
  | some e =>
    have hmem := firstError_mem hfirst
    simp only [configChecks, hdone, hchannel, List.mem_append, List.mem_cons, List.mem_map, Prod.mk.injEq,
      List.not_mem_nil, Bool.false_eq_true, false_and, or_false, false_or] at hmem
    obtain ⟨f, -, -, rfl⟩ := hmem
    rfl

/-- No register has an address above 0x0A (R55). -/
theorem ofAddr?_eq_none {a : Byte} (h : 0x0A < a.toNat) : ChipReg.ofAddr? a = none := by
  have hle : ∀ r : ChipReg, r.addr.toNat ≤ 0x0A := fun r => by cases r <;> decide
  cases hr : ChipReg.ofAddr? a with
  | none => rfl
  | some r => exact absurd (addr_of_ofAddr? hr ▸ hle r) (Nat.not_le.mpr h)

/-- After `INIT`, `WRITE_REG` checks its address first (R146). -/
theorem firstError_writeReg_badAddress {a : Args} (h : 0x0A < (writeRegAddr a).toNat) (rest : List (Bool × ErrCode)) :
    firstError ((true, .notInit) :: (addressOk (writeRegAddr a), .badAddress) :: rest) = some .badAddress := by
  rw [addressOk, ofAddr?_eq_none h]
  rfl

/-- With an address of the map, `WRITE_REG` checks the length against that register's width (R146). -/
theorem firstError_writeReg_badLength {a : Args} {r : ChipReg} (haddr : writeRegAddr a = r.addr)
    (hlen : (writeRegLen a).toNat ≠ r.width) :
    firstError [(true, .notInit), (addressOk (writeRegAddr a), .badAddress),
      (lengthOk (writeRegAddr a) (writeRegLen a), .badLength)] = some .badLength := by
  simp [firstError, haddr, addressOk, lengthOk, ofAddr?_addr, hlen]

/-- Settles O27: each clause names the first failing check of the command's list. -/
theorem checkOrder : Obligations.CheckOrder := by
  intro s ch hidle
  refine ⟨fun hdone => ?_, fun hnew i hi => ?_, fun hdone hch i hi => ?_, fun hdone haddr => ?_,
    fun r hdone haddr hlen => ?_, fun hdone hch hfreq i hi => ?_, fun hdone hch hfreq => ?_⟩
  · exact rejects_of_firstError hidle (exec_init s) (by rw [hdone]; rfl)
  · obtain ⟨rest, effect, hexec⟩ := exec_lineDriving hi s
    exact rejects_of_firstError hidle hexec (by rw [hnew]; rfl)
  · obtain ⟨rest, effect, hexec⟩ := exec_takesChannel hi s
    have hchannel : channelOk ch = false := decide_eq_false (Nat.not_lt.mpr hch)
    exact rejects_of_firstError hidle hexec (by rw [hdone, hchannel]; rfl)
  · exact rejects_of_firstError hidle (exec_writeReg s) (hdone ▸ firstError_writeReg_badAddress haddr _)
  · exact rejects_of_firstError hidle (exec_writeReg s) (hdone ▸ firstError_writeReg_badLength haddr hlen)
  · obtain ⟨effect, hexec⟩ := exec_config_oneFrequency hi s
    exact rejects_of_firstError hidle hexec
      (firstError_configChecks_freqRange hdone hch ⟨_, List.mem_singleton_self _, hfreq⟩)
  · exact rejects_of_firstError hidle (exec_cfgFreqSweep ch s) (firstError_configChecks_freqRange hdone hch hfreq)

end Sys2Proof.Machine
end

section
/-! PROOF. A command offered while another runs (70_reset_and_hazards R253; 60_exceptions R211, R212): it is rejected as
busy, and the block's part runs on beside the error fields. -/

namespace Sys2Proof.Machine

/-- While a command runs every command is rejected as busy, whatever its own checks say (R211). -/
theorem exec_command_busy {i : Instr} {s : State} (hi : i.isCommand = true) (hrun : s.execState.isRunning = true) :
    exec i s = .next (s.reject .busy) := by
  obtain ⟨checks, ⟨-, v, hv⟩ | ⟨-, op, E, hE⟩⟩ := exec_command_offer i s hi
  · rw [hv, offer_busy hrun]
  · rw [hE, offer_busy hrun]

/-- A cycle without an access of a running command is its block's part. -/
theorem step_no_access_running {s : State} {op : HostOp} {rest : List HostOp} (hr : s.rstN = true)
    (hrun : s.execState.isRunning = true) (hhost : s.host = op :: rest) :
    step { s with host := .idle :: rest } = stepBlock s.beginCycle := by
  rw [step_no_access (s := { s with host := .idle :: rest }) hr rfl, beginCycle_host_head hhost]
  exact if_pos hrun

/-- A write to `CMD` while a command runs is rejected as busy, a reserved word too, and the block's part follows. -/
theorem step_cmd_running {s : State} {v : Word} {rest : List HostOp} (hr : s.rstN = true)
    (hrun : s.execState.isRunning = true) (hhost : s.host = .write cmdOffset 4 v :: rest) :
    step s = stepBlock (s.beginCycle.reject .busy) := by
  have hbegun : s.beginCycle.execState.isRunning = true := by rw [s.beginCycle_execState, hrun]
  cases hdecode : decodeCommand v with
  | ok i =>
    rw [step_command hr hhost hdecode (exec_command_busy (decodeCommand_isCommand hdecode) hbegun), if_pos hrun]
  | error e =>
    have hreject : s.beginCycle.rejectReserved = s.beginCycle.reject .busy := if_pos hbegun
    unfold step
    rw [hostPhase_reserved hr hhost hdecode, hreject]
    exact if_pos hrun

/-- The block's part runs on alike beside a rejection. -/
theorem stepBlock_reject {s t : State} (h : stepBlock s = .next t) (e : ErrCode) :
    stepBlock (s.reject e) = .next (t.reject e) := by
  rw [← stepBlock_keeps_aside h]
  exact stepBlock_withAside h (s.reject e)

/-- Settles O29: the rejection stands aside of the block's part, the completion included. -/
theorem busyOfferLost : Obligations.BusyOfferLost := by
  intro s v rest hr hexec hhost
  have hrun := isRunning_of_ne_idle hexec
  obtain ⟨u, hu, -⟩ := stepBlock_cases s.beginCycle
  exact ⟨u, (step_no_access_running hr hrun hhost).trans hu,
    (step_cmd_running hr hrun hhost).trans (stepBlock_reject hu .busy)⟩

end Sys2Proof.Machine
end

section
/-! PROOF. A cycle of block reset (70_reset_and_hazards R240; 10_state R33): the block's record has its reset values, and
the chip, which sees only the lines, keeps what it held unless a frame was open. -/

namespace Sys2Proof.Machine

/-! ### The block's record -/

@[simp] theorem State.resetCycle_args (s : State) : s.resetCycle.args = Args.reset :=
  (congrArg State.args (resetCycle_sameBlock s) :)

@[simp] theorem State.resetCycle_busy (s : State) : s.resetCycle.busy = false :=
  (congrArg State.busy (resetCycle_sameBlock s) :)

@[simp] theorem State.resetCycle_errSticky (s : State) : s.resetCycle.errSticky = false :=
  (congrArg State.errSticky (resetCycle_sameBlock s) :)

@[simp] theorem State.resetCycle_errCode (s : State) : s.resetCycle.errCode = 0 :=
  (congrArg State.errCode (resetCycle_sameBlock s) :)

@[simp] theorem State.resetCycle_lines (s : State) : s.resetCycle.lines = Lines.reset s.cfg :=
  (congrArg State.lines (resetCycle_sameBlock s) :)

@[simp] theorem State.resetCycle_execState (s : State) : s.resetCycle.execState = .idle :=
  (congrArg State.execState (resetCycle_sameBlock s) :)

@[simp] theorem State.resetCycle_rstN (s : State) : s.resetCycle.rstN = (s.hostOp != .blockReset) := rfl

theorem statusWord_resetCycle (s : State) : statusWord s.resetCycle = 0 := by
  simp [statusWord]

/-! ### The receiver -/

/-- With `CS_N` high before them the reset levels are no edge to the receiver: `SCLK` and `IO_UPDATE` can only fall, and
`DDS_RESET` is idle. -/
theorem receive_resetLevels {s : State} {old : Lines} (hlines : s.lines = Lines.reset s.cfg) (hcs : old.csN = true) :
    s.receive old = (s, none) := by
  have hreset : s.chipInReset = false := by simp [State.chipInReset, hlines, Lines.reset]
  have hedge : receiverEdge old s.lines = false := by simp [receiverEdge, hlines, Lines.reset, hcs]
  exact receive_no_edge hreset hedge

theorem blockReset_chip {s : State} (hcs : s.lines.csN = true) : s.blockReset.chip = s.chip := by
  unfold State.blockReset
  dsimp only
  rw [receive_resetLevels rfl hcs]

/-- A chip out of reset with no frame open keeps what it held (R33, R241). -/
theorem resetCycle_chip {s : State} (hreset : s.chipInReset = false) (hcs : s.lines.csN = true) :
    s.resetCycle.chip = s.chip := by
  have hbegin := beginCycle_eq hreset
  have hbegun : s.beginCycle.lines.csN = true := by rw [hbegin, hcs]
  calc s.resetCycle.chip = s.beginCycle.blockReset.chip := rfl
    _ = s.beginCycle.chip := blockReset_chip hbegun
    _ = s.chip := by rw [hbegin]

theorem inResetCycle_iff (s : State) : s.inResetCycle = true ↔ s.hostOp = .blockReset ∨ s.rstN = false := by
  simp [State.inResetCycle]

/-- Settles O41: the step is `resetCycle`, field by field. -/
theorem blockResetValues : Obligations.BlockResetValues := by
  intro s h
  have hrstN : s.resetCycle.rstN = decide (s.hostOp ≠ .blockReset) := by simp [bne, Bool.beq_eq_decide_eq]
  refine ⟨s.resetCycle, step_reset ((inResetCycle_iff s).mpr h), s.resetCycle_args,
    statusWord_resetCycle s, s.resetCycle_result, ?_⟩
  rw [s.resetCycle_lines]
  exact ⟨rfl, rfl, rfl, rfl, rfl, rfl, rfl, rfl, rfl, s.resetCycle_execState, s.resetCycle_trace, hrstN,
    fun hcs hread => resetCycle_chip (chipInReset_false hread) hcs⟩

end Sys2Proof.Machine
end

section
/-! PROOF. Time (70_reset_and_hazards R250, R252): the gap after each `Set`, and the least time of a frame and of the update
pulse. -/

namespace Sys2Proof.Machine

/-! ### Gaps -/

/-- Outside block reset a step of a running command is the block's part of a state with the same `EXEC`, lines and trace, one
cycle on. -/
theorem step_running {s t : State} (hreset : s.inResetCycle = false) (hrun : s.execState.isRunning = true)
    (h : step s = .next t) :
    ∃ w, stepBlock w = .next t ∧ w.execState = s.execState ∧ w.lines = s.lines ∧ w.trace = s.trace
      ∧ w.cycle = s.cycle + 1 := by
  rcases step_cases h with ⟨hr, -⟩ | ⟨-, x, w, hx, hw, ⟨hidle, -⟩ | ⟨-, hblock⟩⟩
  · rw [hreset] at hr
    cases hr
  · rw [hrun] at hidle
    cases hidle
  · obtain ⟨-, hlines, htrace, hcycle⟩ := hw.unchanged hx
    exact ⟨w, hblock, (hw.of_running hx hrun).1, hlines, htrace, hcycle⟩

/-- Settles O44: the block's part counts the gap down, and after a `Set` draws the next one at or above its bound. -/
theorem gapLowerBound : Obligations.GapLowerBound := by
  intro s t op E hreset h
  refine ⟨fun k hexec => ?_, fun l v rest hexec hnext => ?_⟩
  · obtain ⟨w, hblock, hw, hlines, htrace, -⟩ := step_running hreset (by rw [hexec]; rfl) h
    rw [stepBlock_countDown (hw.trans hexec)] at hblock
    cases hblock
    exact ⟨rfl, htrace, hlines⟩
  · obtain ⟨w, hblock, hw, -, htrace, hcycle⟩ := step_running hreset (by rw [hexec]; rfl) h
    obtain ⟨u, hu, hsame⟩ := stepBlock_set (hw.trans hexec) hnext
    cases hu.symm.trans hblock
    refine ⟨minGap rest - 1 + Config.freeDelay (w.emit l v).draws, (congrArg State.execState hsame :), ?_, ?_⟩
    · have hbound : max 1 (leadingWait rest) = minGap rest := rfl
      omega
    · rw [← htrace, ← hcycle]
      exact (congrArg State.trace hsame :)

/-! ### The least time of a list -/

theorem minCycles_bit (c : Cfg) (b : Bool) (E : List Event) :
    minCycles (bitEvents c b ++ E) =
      1 + max 1 c.tSclkLow + max 1 (c.tSclkHigh + leadingWait E) + minCycles E := by
  simp only [bitEvents, List.cons_append, List.nil_append, minCycles, minGap, leadingWait, Nat.add_zero]
  omega

/-- The next bit begins with a `Set`, so no wait reaches into it. -/
theorem leadingWait_bits (c : Cfg) (b : Bool) (bits : List Bool) (E : List Event) :
    leadingWait ((b :: bits).flatMap (bitEvents c) ++ E) = 0 := rfl

/-- Every bit takes one cycle and its two clock levels; the last of these lasts on into the waits that follow. -/
theorem minCycles_bits (c : Cfg) (b : Bool) (bits : List Bool) (E : List Event) :
    minCycles ((b :: bits).flatMap (bitEvents c) ++ E) =
      (bits.length + 1) * (1 + max 1 c.tSclkLow) + bits.length * max 1 c.tSclkHigh
        + max 1 (c.tSclkHigh + leadingWait E) + minCycles E := by
  induction bits generalizing b with
  | nil =>
    rw [List.flatMap_singleton, minCycles_bit, List.length_nil]
    ring
  | cons next bits ih =>
    rw [List.flatMap_cons, List.append_assoc, minCycles_bit, ih, leadingWait_bits, Nat.add_zero, List.length_cons]
    ring

theorem frame_eq_bits (c : Cfg) (a : Byte) (p : List Byte) :
    frame c a p =
      .set .csN false :: .wait c.tCsSetup :: ((frameBits (a :: p)).flatMap (bitEvents c) ++ frameTail c) := by
  rw [frameBits, List.flatMap_assoc]
  exact List.append_assoc ..

/-- After the last bit `CS_N` rises, and the frame completes once it has idled (R141). -/
theorem minCycles_frameTail (c : Cfg) : minCycles (frameTail c) = max 1 c.tCsIdle := rfl

theorem minCycles_frame (c : Cfg) (a : Byte) (p : List Byte) :
    minCycles (frame c a p) =
      max 1 c.tCsSetup + 8 * (1 + p.length) * (1 + max 1 c.tSclkLow) + (8 * (1 + p.length) - 1) * max 1 c.tSclkHigh
        + max 1 (c.tSclkHigh + c.tCsHold) + max 1 c.tCsIdle := by
  obtain ⟨b, bits, hbits⟩ : ∃ b bits, frameBits (a :: p) = b :: bits := ⟨_, _, rfl⟩
  have hlength : 8 * (1 + p.length) = bits.length + 1 := by
    rw [← List.length_cons (a := b), ← hbits, frameBits_length, List.length_cons, Nat.add_comm]
  have htail : leadingWait (frameTail c) = c.tCsHold := rfl
  rw [frame_eq_bits, hbits, minCycles, minGap, leadingWait, leadingWait_bits, Nat.add_zero, minCycles, minCycles_bits,
    minCycles_frameTail, htail, hlength, Nat.add_sub_cancel]
  ring

/-- `UPD` ends in a `Set` without a wait, so its completion takes one cycle more (R163; log 28). -/
theorem minCycles_upd (c : Cfg) : minCycles (upd c) = max 1 c.tUpdPre + max 1 c.tUpdHigh + 1 :=
  (Nat.add_assoc ..).symm

/-- Settles O50: the two sums. -/
theorem leastFrameTime : Obligations.LeastFrameTime := fun c a p =>
  ⟨minCycles_frame c a p, minCycles_upd c⟩

end Sys2Proof.Machine
end
